-- ==== Sys2Proof/Word.lean ====
section
/-! DEFINITION. The two widths of the CORE (R7): the byte the bus moves and the 16-bit slot of a buffer. -/

namespace Sys2Proof

/-- The 8-bit byte the bus moves (R7). -/
abbrev Byte := BitVec 8

/-- The 16-bit unsigned value a buffer slot holds (R7). -/
abbrev Slot := BitVec 16

end Sys2Proof
end

