-- ==== Sys2Proof/Config.lean ====
section
/-! DEFINITION. What provisioning fixes before the block leaves reset (R6 to R11, R30, R63, R138), and the values the
spec leaves open. A value the spec leaves open is an opaque constant without a body: nothing can be proved of it, so a
claim that rests on one holds for every value. -/

namespace Sys2Proof

/-- The twelve waveform functions of R70. -/
inductive WaveformId where
  | power
  | volUp
  | volDown
  | input
  | ok
  | mute
  | menu
  | navUp
  | navDown
  | navLeft
  | navRight
  | escape
  deriving DecidableEq, Repr, Inhabited

/-- What becomes of the odd last byte of a raw-ir payload (R11). -/
inductive OddPolicy where
  | drop
  | pad
  | reject
  deriving DecidableEq, Repr, Inhabited

/-- A "fixed infrared waveform code" (R10, R71 (d)). The spec gives no code's content (N8), so a code is only a name
for one here (DESIGN CHOICE, log 14, safe). -/
abbrev WaveCode := Nat

/-- A duration, of which the spec gives neither value nor unit (R9, N6): uninterpreted (DESIGN CHOICE, log 14, safe). -/
abbrev Duration := Nat

/-- A carrier frequency, of which the spec gives neither value nor unit (R9, N6): uninterpreted (DESIGN CHOICE, log 14,
safe). -/
abbrev Frequency := Nat

/-- The configuration of a provisioned block (R63). `lutRest` is the lookup table but for its one fixed entry
(R71 (a)), a partial map as a list of pairs; `waveforms` gives one code per `WaveformId`, in the order of R70. -/
structure Config where
  busAddr : Nat
  busAddrWidth : Nat
  cmdCap : Nat
  rawCap : Nat
  lutRest : List (Byte × WaveformId)
  waveforms : Vector WaveCode 12
  carrierFreq : Frequency
  interCmdDelay : Duration
  tickPeriod : Duration
  oddPolicy : OddPolicy
  deriving DecidableEq, Repr

namespace Config

/-- What the spec requires of a configuration: both capacities at least 2 (R6), and an address the bus can carry (R8;
the width itself is open, D31). R71 (a) is built into the lookup itself. -/
abbrev valid (cfg : Config) : Prop :=
  2 ≤ cfg.cmdCap ∧ 2 ≤ cfg.rawCap ∧ cfg.busAddr < 2 ^ cfg.busAddrWidth

/-- OPEN (D10, R11): the odd-length policy of the provisioned block. -/
opaque openOddPolicy : OddPolicy

/-- OPEN (D29, R71): the lookup table but for `'P'`. -/
opaque openLutRest : List (Byte × WaveformId)

/-- OPEN (D30, R71 (d)): the waveform codes. -/
opaque openWaveforms : Vector WaveCode 12

/-- OPEN (D28, R9): the carrier frequency. -/
opaque openCarrierFreq : Frequency

/-- OPEN (D27, R9): the inter-command delay. -/
opaque openInterCmdDelay : Duration

/-- OPEN (D26, R9): the tick period. -/
opaque openTickPeriod : Duration

/-- OPEN (D31, R8): how many bits wider than the three that 0x05 needs the bus address is. -/
opaque openBusAddrExtraBits : Nat

/-- FREE VALUE (R12, R98, D15): byte number `k` drawn beyond a read response. Applied to a counter in State, so each
drawn byte is a fresh one. -/
opaque readOverrun : Nat → Byte

/-- The block as provisioned at reset: the spec's defaults (R6, R8), and an open constant for each value it leaves
open (DESIGN CHOICE, log 4 and log 5). -/
def provisioned : Config where
  busAddr := 0x05
  busAddrWidth := 3 + openBusAddrExtraBits
  cmdCap := 33
  rawCap := 64
  lutRest := openLutRest
  waveforms := openWaveforms
  carrierFreq := openCarrierFreq
  interCmdDelay := openInterCmdDelay
  tickPeriod := openTickPeriod
  oddPolicy := openOddPolicy

end Config

end Sys2Proof
end

