-- ==== Sys2Proof/Syntax.lean ====
section
/-! DEFINITION. The operations of the CORE as syntax: the drain actions, the ten operations of R69 (one constructor per
row of spec/opcode_table.json), the frames a decoder classifies, and the events of a run. -/

namespace Sys2Proof

/-- The decoded Command Mode (R24). R74 lets a model leave the unused encoding 3 out of the type (log 15). -/
inductive Mode where
  | none
  | proj
  | raw
  deriving DecidableEq, Repr, Inhabited

/-- A drain action, an entry of `PLAN` (R14, R110 to R112). -/
inductive Action where
  | emitCH1 (w : WaveformId)
  | wait (d : Duration)
  | emitCH2 (codes : List Slot) (f : Frequency)
  deriving DecidableEq, Repr

/-- The ten operations of R69, one constructor per row of the opcode table. -/
inductive Instr where
  /-- `WRITE_EMPTY`: a write transaction of no byte (R88). -/
  | writeEmpty
  /-- `WRITE_PROJ`: mode byte 0x70, then the payload (R89). -/
  | writeProj (payload : List Byte)
  /-- `WRITE_RAW`: mode byte 0x72, then the payload (R90). -/
  | writeRaw (payload : List Byte)
  /-- `WRITE_OTHER`: any other mode byte, then the payload (R91). -/
  | writeOther (selector : Byte) (payload : List Byte)
  /-- `READ`: the Host clocks out `n` bytes (R95). -/
  | read (n : Nat)
  /-- `TICK`: the timer trigger (R101). -/
  | tick
  /-- `SWAP`: the atomic step of a tick (R103). -/
  | swap
  /-- `DRAIN_EMIT1`: the action `emit CH1(w)` (R110). -/
  | drainEmit1 (w : WaveformId)
  /-- `DRAIN_WAIT`: the action `wait(d)` (R111). -/
  | drainWait (d : Duration)
  /-- `DRAIN_EMIT2`: the action `emit CH2(codes, f)` (R112). -/
  | drainEmit2 (codes : List Slot) (f : Frequency)
  deriving DecidableEq, Repr

/-- What a decoder of the CORE classifies (R69): a write by its bytes, a read by its length, the timer's trigger, and
the block's internal steps, a swap or the drain of the action at the head of `PLAN`. -/
inductive Frame where
  | write (bytes : List Byte)
  | read (n : Nat)
  | timer
  | swap
  | drain (a : Action)
  deriving DecidableEq, Repr

/-- One entry of a run's total order (R52), as it reaches the block from outside; `own` is the turn of the Scheduler
or the Drain. A transaction stands either whole (`busWrite`, `busRead`, with the bus address it goes to) or, for a
write the port delivers, byte by byte (`wstart`, `wbyte`, `wstop`, R60). -/
inductive Event where
  | busWrite (addr : Nat) (bytes : List Byte)
  | busRead (addr : Nat) (n : Nat)
  | wstart
  | wbyte (b : Byte)
  | wstop
  | timer
  | own
  /-- A reset while the block is in use (R137). -/
  | reset
  deriving DecidableEq, Repr

end Sys2Proof
end

