-- ==== Sys2Proof/WellFormed.lean ====
section
/-! DEFINITION. When an operation is one the opcode table admits: the operand ranges of its row. A write of any length
and any bytes is well formed (R73), so the checks are few. -/

namespace Sys2Proof

/-- The mode byte of `WRITE_OTHER` is neither 0x70 nor 0x72 (R69, R91). -/
def isOtherSelector (b : Byte) : Bool := b != 0x70 && b != 0x72

/-- The operand ranges of a drain action (R111, R112): the delay is `INTER_CMD_DELAY`, the carrier `CARRIER_FREQ`, and
a burst has 1 to `RAW_CAP` codes, none of them 0. -/
def Action.wellFormed (cfg : Config) : Action → Bool
  | .emitCH1 _ => true
  | .wait d => d == cfg.interCmdDelay
  | .emitCH2 codes f =>
    1 ≤ codes.length && codes.length ≤ cfg.rawCap && codes.all (· != 0) && f == cfg.carrierFreq

/-- The operand ranges of the opcode table's rows. -/
def Instr.wellFormed (cfg : Config) : Instr → Bool
  | .writeEmpty => true
  | .writeProj _ => true
  | .writeRaw _ => true
  | .writeOther b _ => isOtherSelector b
  | .read _ => true
  | .tick => true
  | .swap => true
  | .drainEmit1 w => (Action.emitCH1 w).wellFormed cfg
  | .drainWait d => (Action.wait d).wellFormed cfg
  | .drainEmit2 codes f => (Action.emitCH2 codes f).wellFormed cfg

end Sys2Proof
end

