-- ==== Sys2Proof/Decode.lean ====
section
/-! DEFINITION. The decoder of frames and the encoder back (R64 to R69), the mode byte (R68), the opcode table's rows
as data, the address filter of the bus port (R49, R92), the pseudo-operations (R77), and decoding of a table word. -/

namespace Sys2Proof

/-- `'p'`, the projector selector (R68; ASCII, G1). -/
def selectorProj : Byte := 0x70

/-- `'r'`, the raw-ir selector (R68; ASCII, G1). -/
def selectorRaw : Byte := 0x72

/-- `DecodeMode` (R68): an exact match on the two selectors, every other byte decodes to `NONE`. -/
def decodeMode (b : Byte) : Mode :=
  if b = selectorProj then .proj else if b = selectorRaw then .raw else .none

/-- The 2-bit encoding of `MODE` (R24). -/
def Mode.bits : Mode → BitVec 2
  | .none => 0
  | .proj => 1
  | .raw => 2

/-- Reading the 2-bit encoding; the unused value 3 is treated as `NONE` (R74). -/
def Mode.ofBits (v : BitVec 2) : Mode :=
  if v = 1 then .proj else if v = 2 then .raw else .none

/-- A write transaction is classified by its length and its mode byte (R69). -/
def decodeWrite : List Byte → Instr
  | [] => .writeEmpty
  | b :: payload =>
    match decodeMode b with
    | .proj => .writeProj payload
    | .raw => .writeRaw payload
    | .none => .writeOther b payload

/-- A drain step is classified by the action at the head of `PLAN` (R69). -/
def decodeAction : Action → Instr
  | .emitCH1 w => .drainEmit1 w
  | .wait d => .drainWait d
  | .emitCH2 codes f => .drainEmit2 codes f

/-- The decoder. It is total and refuses nothing: every transaction, trigger and internal step is exactly one row of
the operation map (R69), and no encoding is illegal (R73). -/
def decode : Frame → Instr
  | .write bytes => decodeWrite bytes
  | .read n => .read n
  | .timer => .tick
  | .swap => .swap
  | .drain a => decodeAction a

/-- The encoder, from the formats of R64 to R67 and the selectors of R68. -/
def encode : Instr → Frame
  | .writeEmpty => .write []
  | .writeProj payload => .write (selectorProj :: payload)
  | .writeRaw payload => .write (selectorRaw :: payload)
  | .writeOther b payload => .write (b :: payload)
  | .read n => .read n
  | .tick => .timer
  | .swap => .swap
  | .drainEmit1 w => .drain (.emitCH1 w)
  | .drainWait d => .drain (.wait d)
  | .drainEmit2 codes f => .drain (.emitCH2 codes f)

/-- The mnemonic of an operation's row in the opcode table. -/
def Instr.mnemonic : Instr → String
  | .writeEmpty => "WRITE_EMPTY"
  | .writeProj _ => "WRITE_PROJ"
  | .writeRaw _ => "WRITE_RAW"
  | .writeOther _ _ => "WRITE_OTHER"
  | .read _ => "READ"
  | .tick => "TICK"
  | .swap => "SWAP"
  | .drainEmit1 _ => "DRAIN_EMIT1"
  | .drainWait _ => "DRAIN_WAIT"
  | .drainEmit2 _ _ => "DRAIN_EMIT2"

/-- What an opcode-table row selects on: the first byte of a non-empty write under a mask, or the kind of the frame. -/
inductive Selector where
  | emptyWrite
  | firstByte (pattern mask : Byte)
  | readFrame
  | timerFrame
  | swapFrame
  | emit1Head
  | waitHead
  | emit2Head
  deriving DecidableEq, Repr

/-- Does the selector of a row take this frame, the row's priority apart? -/
def Selector.takes : Selector → Frame → Bool
  | .emptyWrite, .write [] => true
  | .firstByte pattern mask, .write (b :: _) => b &&& mask == pattern
  | .readFrame, .read _ => true
  | .timerFrame, .timer => true
  | .swapFrame, .swap => true
  | .emit1Head, .drain (.emitCH1 _) => true
  | .waitHead, .drain (.wait _) => true
  | .emit2Head, .drain (.emitCH2 _ _) => true
  | _, _ => false

/-- A row of the opcode table: its mnemonic and what selects it. -/
structure Row where
  mnemonic : String
  selector : Selector
  deriving DecidableEq, Repr

/-- The opcode table, in its order, which is also its priority: `WRITE_OTHER` (match 0x00, mask 0x00) has the lowest
priority of the writes. -/
def opcodeTable : List Row :=
  [⟨"WRITE_EMPTY", .emptyWrite⟩,
   ⟨"WRITE_PROJ", .firstByte 0x70 0xFF⟩,
   ⟨"WRITE_RAW", .firstByte 0x72 0xFF⟩,
   ⟨"WRITE_OTHER", .firstByte 0x00 0x00⟩,
   ⟨"READ", .readFrame⟩,
   ⟨"TICK", .timerFrame⟩,
   ⟨"SWAP", .swapFrame⟩,
   ⟨"DRAIN_EMIT1", .emit1Head⟩,
   ⟨"DRAIN_WAIT", .waitHead⟩,
   ⟨"DRAIN_EMIT2", .emit2Head⟩]

/-- The row that takes a frame: the first of the table that does. -/
def tableRow (f : Frame) : Option String :=
  (opcodeTable.find? (fun r => r.selector.takes f)).map Row.mnemonic

/-- The frame an outside event presents to the decoder. A transaction to another address than `BUS_ADDR` presents none
(R49, R92); byte-level port events, `own` and a reset are no frames. -/
def Event.frame (busAddr : Nat) : Event → Option Frame
  | .busWrite addr bytes => if addr = busAddr then some (.write bytes) else none
  | .busRead addr n => if addr = busAddr then some (.read n) else none
  | .timer => some .timer
  | .wstart => none
  | .wbyte _ => none
  | .wstop => none
  | .own => none
  | .reset => none

/-- The port events a write transaction to the block is delivered as (R60, R87). -/
def portEvents (bytes : List Byte) : List Event :=
  .wstart :: (bytes.map .wbyte ++ [.wstop])

/-- The `k` bytes of a table word, the first byte in bits 7..0. -/
def wordBytes : Nat → Nat → List Byte
  | 0, _ => []
  | k + 1, w => BitVec.ofNat 8 w :: wordBytes k (w / 256)

/-- The operation read from a table word. The opcode table gives bits to write transactions only, so the word is the
write transaction of its whole bytes; a number of bits that is not whole bytes is no transaction, since the bus moves
whole bytes (R7) (log 11). -/
def decodeTableWord (nbits w : Nat) : Option Instr :=
  if nbits % 8 = 0 then some (decode (.write (wordBytes (nbits / 8) w))) else none

/-- The bytes of a write as one number, the first byte in bits 7..0. -/
def bytesWord : List Byte → Nat
  | [] => 0
  | b :: rest => b.toNat + 256 * bytesWord rest

/-- The table word of an operation, its number of bits and its bits; only a write transaction has one. -/
def encodeTableWord (i : Instr) : Option (Nat × Nat) :=
  match encode i with
  | .write bytes => some (8 * bytes.length, bytesWord bytes)
  | .read _ => none
  | .timer => none
  | .swap => none
  | .drain _ => none

/-- Bits [15:8] of a slot (R13). -/
def highByte (v : Slot) : Byte := v.extractLsb' 8 8

/-- Bits [7:0] of a slot (R13, R43). -/
def lowByte (v : Slot) : Byte := v.extractLsb' 0 8

/-- The bytes of raw codes on the bus, each high byte first (R41, R66). -/
def codeBytes (codes : List Slot) : List Byte :=
  codes.flatMap (fun v => [highByte v, lowByte v])

/-- The pseudo-operation `PROJ(c1, ..., ck)` (R77), for at most 255 codes. -/
def pseudoProj (busAddr : Nat) (codes : List Byte) : List Event :=
  [.busWrite busAddr (selectorProj :: BitVec.ofNat 8 codes.length :: codes)]

/-- The pseudo-operation `RAWSEND(v1, ..., vk)` (R77). -/
def pseudoRawsend (busAddr : Nat) (codes : List Slot) : List Event :=
  [.busWrite busAddr (selectorRaw :: codeBytes codes)]

/-- The pseudo-operation `PROBE(m)` (R77). -/
def pseudoProbe (busAddr : Nat) (m : Byte) : List Event :=
  [.busWrite busAddr [m]]

/-- The pseudo-operation `DUMP(m)` (R77): a probe, then a read of the capacity of the mode it selects (R37). -/
def pseudoDump (cfg : Config) (m : Byte) : List Event :=
  [.busWrite cfg.busAddr [m],
   .busRead cfg.busAddr (match decodeMode m with
     | .raw => cfg.rawCap
     | .proj => cfg.cmdCap
     | .none => cfg.cmdCap)]

end Sys2Proof
end

