-- ==== Sys2Proof/Machine/State.lean ====
section
/-! DEFINITION. The state of the CORE (R17), the model's own fields beside it, the ways a step can stop, and reset
(R135). State is plain data. -/

namespace Sys2Proof.Machine

/-- The state of the Bus Transaction Handler (R26). -/
inductive HState where
  | idle
  | awaitingPayload
  deriving DecidableEq, Repr

/-- The state of the Transmission Scheduler (R29): `S_IDLE` or `S_DRAIN`. -/
inductive SState where
  | idle
  | drain
  deriving DecidableEq, Repr

/-- The two buffers of the Register Store (R36). -/
inductive Buf where
  | cmd
  | raw
  deriving DecidableEq, Repr

/-- One entry of the observation (R16): a byte delivered to the Host, or a performed drain action with what it hands
to its channel (R62, R110 to R112). -/
inductive Obs where
  | delivered (b : Byte)
  | sent1 (w : WaveformId) (code : WaveCode)
  | waited (d : Duration)
  | sent2 (codes : List Slot) (f : Frequency)
  deriving DecidableEq, Repr

/-- The error classes of R117, all absorbed (R118). -/
inductive ErrorClass where
  | zeroLength
  | unmappedCommand
  | bufferOverrun
  | oddLength
  | unrecognizedMode
  deriving DecidableEq, Repr

/-- What the block can answer to an address or a byte on the bus. It never answers `nack` (R93). -/
inductive BusReply where
  | ack
  | nack
  deriving DecidableEq, Repr

/-- The state. `cmd` to `plan` are the eleven elements of R17, and nothing else is state of the hardware. The other
fields are the model's own: the provisioned configuration, which no step writes (R30, log 1); the events still to come
(log 2); the number of `READ_OVERRUN` bytes drawn (R98, log 3); the observation (R16, log 6); the absorbed error
classes, trace labels R118 allows (log 7); the bus replies (R93, log 8). -/
@[ext]
structure State where
  cfg : Config
  cmd : List Slot
  raw : List Slot
  cursor : Nat
  mode : Mode
  hstate : HState
  txnOpen : Bool
  hi : Byte
  hiValid : Bool
  tickPending : Bool
  sstate : SState
  plan : List Action
  agenda : List Event
  draws : Nat
  obs : List Obs
  absorbed : List ErrorClass
  acks : List BusReply
  deriving DecidableEq, Repr

/-- Why the machine stops with a fault: never. Every error of the block is absorbed where it arises and nothing traps
(R118, R127), so there is no constructor (log 17). -/
inductive Fault where
  deriving DecidableEq, Repr

/-- Why an operation is refused. None is an operation the block could perform: each names an event that is not enabled
in the state, so that it does not occur there (log 9, log 10). -/
inductive Refusal where
  /-- Raised by an arm of `exec` whose operation has no meaning yet; no arm raises it. Safe. -/
  | notModelled (mnemonic : String)
  /-- Raised by a write or a read while a write transaction is open: the bus carries one transaction at a time (R53,
  R78, R95). Safe: no such event occurs. -/
  | busBusy
  /-- Raised by `SWAP` where R102 does not enable it. Safe: the swap is deferred, so no such event occurs. -/
  | swapNotEnabled
  /-- Raised by a drain operation that is not the action at the head of `PLAN`, or with no drain in progress (R69,
  R109). Safe: no such event occurs. -/
  | drainNotEnabled
  /-- Raised by a byte-level port event out of the order `WSTART`, `WBYTE`, ..., `WSTOP` (R60, R78). Safe: the port
  delivers none. -/
  | portOrder
  deriving DecidableEq, Repr

/-- The outcome of a step of this machine. -/
abbrev Result := Host.Outcome State Fault Refusal

/-- The machine right after reset (R135), with the block provisioned (R138) and no event listed (log 2, 3, 6, 7, 8). -/
def State.reset : State where
  cfg := Config.provisioned
  cmd := List.replicate 33 0
  raw := List.replicate 64 0
  cursor := 0
  mode := .none
  hstate := .idle
  txnOpen := false
  hi := 0
  hiValid := false
  tickPending := false
  sstate := .idle
  plan := []
  agenda := []
  draws := 0
  obs := []
  absorbed := []
  acks := []

end Sys2Proof.Machine
end

