-- ==== Sys2Proof/Machine/Operands.lean ====
section
/-! DEFINITION. The operand forms of the CORE: the active buffer and its capacity (R37), widening and pairing of bytes
(R41, R42), the lookup table (R70, R71), the plan of a swap (R104 to R107), and what a drain action hands to its
channel (R110 to R112). -/

namespace Sys2Proof.Machine

/-- `ACTIVE(m)` (R37): `RAW` in raw-ir mode, otherwise `CMD`, also in mode `NONE`. -/
def activeBuf : Mode → Buf
  | .raw => .raw
  | .proj => .cmd
  | .none => .cmd

/-- The capacity of a buffer (R6). -/
def bufCap (cfg : Config) : Buf → Nat
  | .cmd => cfg.cmdCap
  | .raw => cfg.rawCap

/-- `CAP(m)` (R37). -/
def modeCap (cfg : Config) (m : Mode) : Nat := bufCap cfg (activeBuf m)

/-- The slots of a buffer. -/
def State.buf (s : State) : Buf → List Slot
  | .cmd => s.cmd
  | .raw => s.raw

/-- `zext_16(b)` (R13, R42). -/
def zext16 (b : Byte) : Slot := b.setWidth 16

/-- `{first, second}` (R13, R41): the first byte of a raw pair is bits [15:8]. -/
def bigEndian (first second : Byte) : Slot := first ++ second

/-- `LUT(c)` (R70, R71 (a)): `'P'` is `POWER`, every other entry is the provisioned table's. -/
def lookup (cfg : Config) (c : Byte) : Option WaveformId :=
  if c = 0x50 then some .power else cfg.lutRest.lookup c

/-- The place of a waveform function in the order of R70. -/
def waveformIndex : WaveformId → Fin 12
  | .power => 0
  | .volUp => 1
  | .volDown => 2
  | .input => 3
  | .ok => 4
  | .mute => 5
  | .menu => 6
  | .navUp => 7
  | .navDown => 8
  | .navLeft => 9
  | .navRight => 10
  | .escape => 11

/-- `WAVEFORM(w)` (R10, R71 (d)). -/
def waveform (cfg : Config) (w : WaveformId) : WaveCode := cfg.waveforms[waveformIndex w]

/-- What performing an action shows (R16) and hands to its channel (R110 to R112). -/
def actionShown (cfg : Config) : Action → Obs
  | .emitCH1 w => .sent1 w (waveform cfg w)
  | .wait d => .waited d
  | .emitCH2 codes f => .sent2 codes f

/-- The count the scheduler reads from slot 0 of `CMD`, 8 bits unsigned (R19, R105). -/
def projCount (cmd : List Slot) : Nat := (lowByte (cmd.getD 0 0)).toNat

/-- The command codes the loop of R105 consults: slots 1 to min(count, CMD_CAP - 1), up to the first zero code. -/
def projCodes (cfg : Config) (cmd : List Slot) : List Byte :=
  (((cmd.drop 1).take (min (projCount cmd) (cfg.cmdCap - 1))).map lowByte).takeWhile (· != 0)

/-- The codes of R105's loop with no lookup-table entry: each is skipped (R120). -/
def projUnmapped (cfg : Config) (cmd : List Slot) : List Byte :=
  (projCodes cfg cmd).filter (fun c => (lookup cfg c).isNone)

/-- `Interleave` (R105): one wait between two emissions, none before the first or after the last. -/
def interleave (delay : Duration) : List WaveformId → List Action
  | [] => []
  | [w] => [.emitCH1 w]
  | w :: w' :: rest => .emitCH1 w :: .wait delay :: interleave delay (w' :: rest)

/-- `PlanProj` (R105). -/
def planProj (cfg : Config) (cmd : List Slot) : List Action :=
  interleave cfg.interCmdDelay ((projCodes cfg cmd).filterMap (lookup cfg))

/-- The raw codes before the sentinel, at most `RAW_CAP` of them (R106). -/
def rawCodes (cfg : Config) (raw : List Slot) : List Slot :=
  (raw.take cfg.rawCap).takeWhile (· != 0)

/-- `PlanRaw` (R106): one burst of the codes before the sentinel, none if there is no such code. -/
def planRaw (cfg : Config) (raw : List Slot) : List Action :=
  match rawCodes cfg raw with
  | [] => []
  | c :: rest => [.emitCH2 (c :: rest) cfg.carrierFreq]

/-- `Plan` (R104, R107): a switch on the Command Mode. -/
def planOf (cfg : Config) (m : Mode) (cmd raw : List Slot) : List Action :=
  match m with
  | .proj => planProj cfg cmd
  | .raw => planRaw cfg raw
  | .none => []

/-- The codes a swap skips as unmapped: only the projector branch consults the table (R105, R120). -/
def planUnmapped (cfg : Config) (m : Mode) (cmd : List Slot) : List Byte :=
  match m with
  | .proj => projUnmapped cfg cmd
  | .raw => []
  | .none => []

end Sys2Proof.Machine
end

