-- ==== Sys2Proof/Machine/Flags.lean ====
section
/-! DEFINITION. The CORE has no flags or condition codes (R32). Here stand the conditions its rules test: when a store
wraps (R80, R81), when the swap is enabled (R102), when a drain action is enabled (R69, R109), and quiescence (R154). -/

namespace Sys2Proof.Machine

/-- The index a store or a read starts at: the cursor wrapped into the buffer's range (R38, R95). -/
def slotIndex (b : Buf) (s : State) : Nat := s.cursor % bufCap s.cfg b

/-- The next store into the buffer lands at the wrap boundary, class `BufferOverrun` (R80, R81, R85, R117). -/
def storeWraps (b : Buf) (s : State) : Bool := slotIndex b s == bufCap s.cfg b - 1

/-- R102: the swap is enabled exactly when `TICK_PENDING = 1`, `TXN_OPEN = 0` and `SSTATE = S_IDLE`. -/
def swapEnabled (s : State) : Bool := s.tickPending && !s.txnOpen && s.sstate == .idle

/-- R69, R109: a drain operation is enabled when `SSTATE = S_DRAIN` and its action is the head of `PLAN`. -/
def drainEnabled (a : Action) (s : State) : Bool := s.sstate == .drain && s.plan.head? == some a

/-- R154: no write in progress, no emission pending, no tick waiting. -/
def quiescent (s : State) : Bool := !s.txnOpen && s.sstate == .idle && !s.tickPending

end Sys2Proof.Machine
end

