-- ==== Sys2Proof/Machine/Ops.lean ====
section
/-! DEFINITION. The shared operations of the CORE: the model's own records (absorbing an error, acknowledging,
observing), `Store` and `Load` (R38, R39), the byte-level steps of the Bus Transaction Handler (R78 to R86), a whole
write as their fold (R87), the read response (R95, R98), the swap (R103, R108), a drain step (R109), and a reset in
use (R137). The CORE takes no exception (R127): `absorb` is the one operation every error goes through. -/

namespace Sys2Proof.Machine

/-- `absorb <Class>` (R14, R118): nothing of the hardware's state changes, the label is recorded (log 7). -/
def absorb (c : ErrorClass) (s : State) : State := { s with absorbed := s.absorbed ++ [c] }

/-- The block acknowledges an address or a byte (R93, log 8). -/
def acknowledge (s : State) : State := { s with acks := s.acks ++ [.ack] }

/-- The observation goes on (R16). -/
def observe (os : List Obs) (s : State) : State := { s with obs := s.obs ++ os }

/-- Writing a buffer whole. -/
def State.setBuf (s : State) (b : Buf) (slots : List Slot) : State :=
  match b with
  | .cmd => { s with cmd := slots }
  | .raw => { s with raw := slots }

/-- The slots of a buffer after a store of `v` at index `i` (R38): at the wrap boundary, slot 0 is pre-cleared after
the write of `v`. -/
def storeSlots (cap i : Nat) (v : Slot) (slots : List Slot) : List Slot :=
  if i = cap - 1 then (slots.set i v).set 0 0 else slots.set i v

/-- `Store(buf, cap, v)` (R38). -/
def store (b : Buf) (v : Slot) (s : State) : State :=
  { s.setBuf b (storeSlots (bufCap s.cfg b) (slotIndex b s) v (s.buf b)) with
    cursor := (slotIndex b s + 1) % bufCap s.cfg b }

/-- `Load(buf, cap, i)` (R39): the index wraps, no state changes. -/
def load (b : Buf) (i : Nat) (s : State) : Slot := (s.buf b).getD (i % bufCap s.cfg b) 0

/-- A store of the write path: `BufferOverrun` is absorbed before a store that wraps (R80, R81, R85). -/
def storeCounted (b : Buf) (v : Slot) (s : State) : State :=
  store b v (if storeWraps b s then absorb .bufferOverrun s else s)

/-- `WSTART` (R78), with the address acknowledged (R93). -/
def wstart (s : State) : State := { acknowledge s with txnOpen := true }

/-- The mode byte (R79). -/
def modeByte (b : Byte) (s : State) : State :=
  { s with mode := decodeMode b, cursor := 0, hiValid := false, hstate := .awaitingPayload }

/-- A projector payload byte (R80). -/
def projByte (b : Byte) (s : State) : State := storeCounted .cmd (zext16 b) s

/-- A raw-ir payload byte (R81): the first of a pair is latched, the second stores the pair. -/
def rawByte (b : Byte) (s : State) : State :=
  if s.hiValid then { storeCounted .raw (bigEndian s.hi b) s with hiValid := false }
  else { s with hi := b, hiValid := true }

/-- A payload byte, by the mode (R80, R81, R82). -/
def payloadByte (b : Byte) (s : State) : State :=
  match s.mode with
  | .proj => projByte b s
  | .raw => rawByte b s
  | .none => absorb .unrecognizedMode s

/-- `WBYTE(b)` (R79 to R82): a mode byte or a payload byte, by `HSTATE`; the byte is acknowledged (R93). -/
def wbyte (b : Byte) (s : State) : State :=
  match s.hstate with
  | .idle => modeByte b (acknowledge s)
  | .awaitingPayload => payloadByte b (acknowledge s)

/-- The odd last byte of a raw-ir payload, held in `HI`, under the policy (R83 to R86). -/
def oddByte (s : State) : State :=
  match s.cfg.oddPolicy with
  | .drop => absorb .oddLength s
  | .pad => storeCounted .raw (bigEndian s.hi 0x00) (absorb .oddLength s)
  | .reject => { absorb .oddLength s with mode := .none }

/-- What the end of a write absorbs or does before it closes (R83). -/
def wstopEffect (s : State) : State :=
  match s.hstate with
  | .idle => absorb .zeroLength s
  | .awaitingPayload => if s.mode = .raw ∧ s.hiValid = true then oddByte s else s

/-- The handler is back between transactions (R83). -/
def closeTxn (s : State) : State := { s with hiValid := false, hstate := .idle, txnOpen := false }

/-- `WSTOP` (R83). -/
def wstop (s : State) : State := closeTxn (wstopEffect s)

/-- The bytes of a write, one after the other (R87). -/
def wbytes (bytes : List Byte) (s : State) : State := bytes.foldl (fun t b => wbyte b t) s

/-- A whole write transaction is `WSTART; WBYTE(b[0]); ...; WBYTE(b[N-1]); WSTOP` (R87). -/
def writeTransaction (bytes : List Byte) (s : State) : State := wstop (wbytes bytes (wstart s))

/-- A write transaction where the bus can carry one (R78). -/
def busWrite (bytes : List Byte) (s : State) : Result :=
  if s.txnOpen then .refused .busBusy else .next (writeTransaction bytes s)

/-- The read response (R95): the low bytes from the wrapped cursor to the end of the active buffer. -/
def response (s : State) : List Byte :=
  (List.range' (slotIndex (activeBuf s.mode) s) (modeCap s.cfg s.mode - slotIndex (activeBuf s.mode) s)).map
    (fun j => lowByte (load (activeBuf s.mode) j s))

/-- How many bytes of a read of `n` lie beyond the response (R98). -/
def overrunCount (n : Nat) (s : State) : Nat := n - (response s).length

/-- The bytes a read of `n` delivers (R95, R98): the response as far as it goes, then a fresh free value each. -/
def readAnswer (n : Nat) (s : State) : List Byte :=
  (response s).take n ++ (List.range (overrunCount n s)).map (fun k => Config.readOverrun (s.draws + k))

/-- The cursor after a read (R95): one slot past its wrapped value, whatever `n` is (R99). -/
def readCursor (s : State) : Nat := (slotIndex (activeBuf s.mode) s + 1) % modeCap s.cfg s.mode

/-- A read transaction (R95), with the address acknowledged (R93). -/
def readTransaction (n : Nat) (s : State) : State :=
  { observe ((readAnswer n s).map .delivered) (acknowledge s) with
    cursor := readCursor s
    draws := s.draws + overrunCount n s }

/-- The tick trigger (R101): triggers merge into the one pending bit. -/
def raiseTick (s : State) : State := { s with tickPending := true }

/-- The scheduler state a plan leads to (R103, R109). -/
def sstateFor (plan : List Action) : SState := if plan = [] then .idle else .drain

/-- The swap (R103): the plan from the state as it stands, then both buffers and the mode cleared (R108). The unmapped
codes are absorbed while the plan is computed (R105). -/
def swapState (s : State) : State :=
  { s with
    plan := planOf s.cfg s.mode s.cmd s.raw
    sstate := sstateFor (planOf s.cfg s.mode s.cmd s.raw)
    absorbed := s.absorbed ++ (planUnmapped s.cfg s.mode s.cmd).map (fun _ => .unmappedCommand)
    cmd := List.replicate s.cfg.cmdCap 0
    raw := List.replicate s.cfg.rawCap 0
    mode := .none
    tickPending := false }

/-- A drain step that performs `a` and leaves `rest` (R109). -/
def performHead (a : Action) (s : State) : State :=
  { observe [actionShown s.cfg a] s with plan := s.plan.tail, sstate := sstateFor s.plan.tail }

/-- A drain operation where its action is the head of the plan (R109). -/
def drainStep (a : Action) (s : State) : Result :=
  if drainEnabled a s then .next (performHead a s) else .refused .drainNotEnabled

/-- A reset in use (R137): every element of R17 at the value of R135; an open write and an undrained plan are
abandoned. The configuration stays (R30), and so does what was already shown. -/
def resetState (s : State) : State :=
  { s with
    cmd := List.replicate s.cfg.cmdCap 0
    raw := List.replicate s.cfg.rawCap 0
    cursor := 0
    mode := .none
    hstate := .idle
    txnOpen := false
    hi := 0
    hiValid := false
    tickPending := false
    sstate := .idle
    plan := [] }

end Sys2Proof.Machine
end

