-- ==== Sys2Proof/Machine/BusRead.lean ====
section
/-! DEFINITION. The meaning of the read operation (R95 to R100). -/

namespace Sys2Proof.Machine

/-- `READ` (R95), enabled when `TXN_OPEN = 0`. -/
def execRead (n : Nat) (s : State) : Result :=
  if s.txnOpen then .refused .busBusy else .next (readTransaction n s)

end Sys2Proof.Machine
end

