-- ==== Sys2Proof/Machine/BusWrite.lean ====
section
/-! DEFINITION. The meanings of the four write operations (R88 to R91), each the transaction its bytes make (R87). -/

namespace Sys2Proof.Machine

/-- `WRITE_EMPTY` (R88). -/
def execWriteEmpty (s : State) : Result := busWrite [] s

/-- `WRITE_PROJ` (R89). -/
def execWriteProj (payload : List Byte) (s : State) : Result := busWrite (selectorProj :: payload) s

/-- `WRITE_RAW` (R90). -/
def execWriteRaw (payload : List Byte) (s : State) : Result := busWrite (selectorRaw :: payload) s

/-- `WRITE_OTHER` (R91). -/
def execWriteOther (selector : Byte) (payload : List Byte) (s : State) : Result := busWrite (selector :: payload) s

end Sys2Proof.Machine
end

