-- ==== Sys2Proof/Machine/Scheduler.lean ====
section
/-! DEFINITION. The meanings of the timer trigger, the swap and the three drain operations (R101 to R112). -/

namespace Sys2Proof.Machine

/-- `TICK` (R101), a step the Tick Timer may take at any moment. -/
def execTick (s : State) : Result := .next (raiseTick s)

/-- `SWAP` (R103), where R102 enables it. -/
def execSwap (s : State) : Result :=
  if swapEnabled s then .next (swapState s) else .refused .swapNotEnabled

/-- `DRAIN_EMIT1` (R110). -/
def execDrainEmit1 (w : WaveformId) (s : State) : Result := drainStep (.emitCH1 w) s

/-- `DRAIN_WAIT` (R111). -/
def execDrainWait (d : Duration) (s : State) : Result := drainStep (.wait d) s

/-- `DRAIN_EMIT2` (R112). -/
def execDrainEmit2 (codes : List Slot) (f : Frequency) (s : State) : Result := drainStep (.emitCH2 codes f) s

end Sys2Proof.Machine
end

