-- ==== Sys2Proof/Machine/Dispatch.lean ====
section
/-! DEFINITION. One arm per operation of the map (R69). -/

namespace Sys2Proof.Machine

def exec (i : Instr) (s : State) : Host.Outcome State Fault Refusal :=
  match i with
  | .writeEmpty => Sys2Proof.Machine.execWriteEmpty s
  | .writeProj payload => Sys2Proof.Machine.execWriteProj payload s
  | .writeRaw payload => Sys2Proof.Machine.execWriteRaw payload s
  | .writeOther selector payload => Sys2Proof.Machine.execWriteOther selector payload s
  | .read n => Sys2Proof.Machine.execRead n s
  | .tick => Sys2Proof.Machine.execTick s
  | .swap => Sys2Proof.Machine.execSwap s
  | .drainEmit1 w => Sys2Proof.Machine.execDrainEmit1 w s
  | .drainWait d => Sys2Proof.Machine.execDrainWait d s
  | .drainEmit2 codes f => Sys2Proof.Machine.execDrainEmit2 codes f s

end Sys2Proof.Machine
end

