-- ==== Sys2Proof/Machine/Fetch.lean ====
section
/-! DEFINITION. Which operation the next step runs. The CORE fetches no instructions (R58): the run's order of events
(R52) stands in `agenda`, and the block's own step is the one its state enables (R102, R109). -/

namespace Sys2Proof.Machine

/-- The block's own enabled step as a frame (R69): the swap where R102 enables it, else the drain of the head of
`PLAN` where a drain is in progress. The two are never enabled together (R102). -/
def ownFrame (s : State) : Option Frame :=
  if swapEnabled s then some .swap
  else if s.sstate = .drain then s.plan.head?.map .drain else none

/-- The frame the next step runs: that of the event at the head of the agenda, or the block's own step at `own` and
where no event is listed. -/
def fetchFrame (s : State) : Option Frame :=
  match s.agenda with
  | [] => ownFrame s
  | .own :: _ => ownFrame s
  | ev :: _ => ev.frame s.cfg.busAddr

/-- The operation the next step runs, decoded from its frame. -/
def fetchInstr (s : State) : Option Instr := (fetchFrame s).map decode

/-- The event at the head of the agenda is taken. -/
def advance (s : State) : State := { s with agenda := s.agenda.tail }

/-- The next step where its event is no operation of the map: a byte-level port event (R78 to R83), a reset (R137), a
transaction to another address, which the block does not see (R92), or a turn of the block with nothing enabled. -/
def portStep (s : State) : Result :=
  match s.agenda with
  | .wstart :: _ => if s.txnOpen then .refused .portOrder else .next (wstart (advance s))
  | .wbyte b :: _ => if s.txnOpen then .next (wbyte b (advance s)) else .refused .portOrder
  | .wstop :: _ => if s.txnOpen then .next (wstop (advance s)) else .refused .portOrder
  | .reset :: _ => .next (resetState (advance s))
  | .busWrite _ _ :: _ => .next (advance s)
  | .busRead _ _ :: _ => .next (advance s)
  | .timer :: _ => .next (advance s)
  | .own :: _ => .next (advance s)
  | [] => .next (advance s)

end Sys2Proof.Machine
end

