-- ==== Sys2Proof/Machine/Step.lean ====
section
/-! DEFINITION. One step: the next event of the run's order (R52), run as its operation, or as the port event it is. -/

namespace Sys2Proof.Machine

/-- One atomic event (R51): the operation the next event selects, at the state with that event taken. -/
def step (s : State) : Host.Outcome State Fault Refusal :=
  match fetchInstr s with
  | some i => exec i (advance s)
  | none => portStep s

/-- The state with the write transaction of a table word as the next event (log 11). -/
def State.withFetchWord (s : State) (nbits w : Nat) : State :=
  { s with agenda := .busWrite s.cfg.busAddr (wordBytes (nbits / 8) w) :: s.agenda }

end Sys2Proof.Machine
end

