-- ==== Sys2Proof/Safety.lean ====
section
/-! DEFINITION. The terms claims use: the form of the two buffers, the invariant of a run, the order of events a port
can deliver, and the two sequences of the observation (R16). -/

namespace Sys2Proof.Machine

/-- The form of the register files: each buffer has its capacity of slots (R18, R21). The CORE has no other memory
(R36). -/
abbrev Memory.wf (s : State) : Prop := s.cmd.length = s.cfg.cmdCap ∧ s.raw.length = s.cfg.rawCap

/-- The register store: its form, the cursor's range (R23), and the upper byte of every `CMD` slot 0 (R20). -/
abbrev storeInv (s : State) : Prop :=
  Memory.wf s ∧ s.cursor < max s.cfg.cmdCap s.cfg.rawCap ∧ ∀ v ∈ s.cmd, highByte v = 0

/-- The handler: payload is awaited only inside a write transaction (R26), and an unpaired byte is held only while the
payload of a raw-ir write is awaited (R27). -/
abbrev handlerInv (s : State) : Prop :=
  (s.hstate = .awaitingPayload → s.txnOpen = true) ∧
  (s.hiValid = true → s.hstate = .awaitingPayload ∧ s.mode = .raw)

/-- The action uses channel 2. -/
def onChannel2 : Action → Bool
  | .emitCH1 _ => false
  | .wait _ => false
  | .emitCH2 _ _ => true

/-- The action is an emission on a channel (R110, R112). -/
def emits : Action → Bool
  | .emitCH1 _ => true
  | .wait _ => false
  | .emitCH2 _ _ => true

/-- The action is a delay between two emissions (R111). -/
def waits : Action → Bool
  | .emitCH1 _ => false
  | .wait _ => true
  | .emitCH2 _ _ => false

/-- The scheduler: a drain is in progress exactly while the plan is not empty (R29, R103, R109), every action has the
operands its row admits (R111, R112), the plan is within its bound (R29, R115), and a plan uses one channel (R113). -/
abbrev planInv (s : State) : Prop :=
  (s.sstate = .drain ↔ s.plan ≠ []) ∧
  (∀ a ∈ s.plan, a.wellFormed s.cfg = true) ∧
  s.plan.length ≤ 2 * s.cfg.cmdCap - 3 ∧
  ((∀ a ∈ s.plan, onChannel2 a = false) ∨ s.plan.length = 1)

/-- The order in which events can come (R53, R60, R78): one transaction at a time, a write's bytes inside its `WSTART`
and `WSTOP`. The first argument says whether a write is open. -/
def agendaOk : Bool → List Event → Bool
  | _, [] => true
  | o, .busWrite _ _ :: rest => !o && agendaOk o rest
  | o, .busRead _ _ :: rest => !o && agendaOk o rest
  | o, .wstart :: rest => !o && agendaOk true rest
  | o, .wbyte _ :: rest => o && agendaOk o rest
  | o, .wstop :: rest => o && agendaOk false rest
  | o, .timer :: rest => agendaOk o rest
  | o, .own :: rest => agendaOk o rest
  | _, .reset :: rest => agendaOk false rest

/-- What holds of every state a provisioned block reaches under events in an order that can come. -/
abbrev RunInv (s : State) : Prop :=
  s.cfg.valid ∧ storeInv s ∧ handlerInv s ∧ planInv s ∧ agendaOk s.txnOpen s.agenda = true

/-- Events that are no write to the block: ticks, reads, turns of the block (R116), resets, and writes to another
address, which the block does not see (R92). -/
def isNoWrite (busAddr : Nat) : Event → Bool
  | .busWrite addr _ => addr != busAddr
  | .busRead _ _ => true
  | .wstart => false
  | .wbyte _ => false
  | .wstop => false
  | .timer => true
  | .own => true
  | .reset => true

/-- The entry of the observation is a performed drain action (R16). -/
def Obs.isAction : Obs → Bool
  | .delivered _ => false
  | .sent1 _ _ => true
  | .waited _ => true
  | .sent2 _ _ => true

/-- The sequence of drain actions performed (R16). -/
def State.actions (s : State) : List Obs := s.obs.filter Obs.isAction

/-- The state after a swap of the given plan, which met the given actions performed, with no write to the block still
to come: the mode stays `NONE`, and the actions performed since are the plan's first ones, the rest of it still to be
performed or abandoned by a reset (R116, R137). -/
abbrev quietInv (plan : List Action) (before : List Obs) (s : State) : Prop :=
  RunInv s ∧ s.mode = .none ∧ s.txnOpen = false ∧ (∀ ev ∈ s.agenda, isNoWrite s.cfg.busAddr ev = true) ∧
  ∃ m : Nat, (s.plan = plan.drop m ∨ s.plan = []) ∧ s.actions = before ++ (plan.take m).map (actionShown s.cfg)

/-- The entry of the observation is an emission on a channel (R62). -/
def Obs.isEmission : Obs → Bool
  | .delivered _ => false
  | .sent1 _ _ => true
  | .waited _ => false
  | .sent2 _ _ => true

/-- The sequence of emissions on the two channels (R62). -/
def State.emissions (s : State) : List Obs := s.obs.filter Obs.isEmission

/-- The state without the trace labels of absorbed errors (R118). -/
def State.withoutLabels (s : State) : State := { s with absorbed := [] }

/-- The outcome of a step without the trace labels of absorbed errors (R118). -/
def withoutLabels : Result → Result
  | .next s => .next s.withoutLabels
  | .fault r => .fault r
  | .refused r => .refused r

/-- Is the outcome a next state? -/
def isNext : Result → Bool
  | .next _ => true
  | .fault _ => false
  | .refused _ => false

end Sys2Proof.Machine
end

