-- ==== Sys2Proof/Certificates/Slice0/Obligations.lean ====
section
/-! DEFINITION. The statements for the provers. Each docstring names the rule of the spec it formalises. Beside them
stand the spec's own forms the statements are written with: the closed form of R87 and the loop of R105. -/

open Sys2Proof Sys2Proof.Machine

namespace Sys2Proof.Spec

/-- The value of the last store of `us` that lands at index `i` (R87): `u_k` for the largest `k < U` with
`k mod cap = i`. -/
def lastStored (us : List Slot) (cap i : Nat) : Option Slot :=
  (((List.range us.length).filter (fun k => k % cap == i)).getLast?).bind (fun k => us[k]?)

/-- Slot `i` after the stores `us` from cursor 0, where it held `old` (R87). -/
def slotAfter (us : List Slot) (cap : Nat) (old : Slot) (i : Nat) : Slot :=
  if i = 0 ∧ us ≠ [] ∧ us.length % cap = 0 then 0 else (lastStored us cap i).getD old

/-- The codes of the complete pairs of a raw-ir payload, big-endian, in order (R66, R81). -/
def pairCodes : List Byte → List Slot
  | a :: b :: rest => bigEndian a b :: pairCodes rest
  | [_] => []
  | [] => []

/-- The stores of a raw-ir write (R87): its pairs, and under `PAD` with an odd payload one more code. -/
def rawStores (p : OddPolicy) (payload : List Byte) : List Slot :=
  pairCodes payload ++
    if payload.length % 2 = 1 ∧ p = .pad then [bigEndian (payload.getLastD 0) 0x00] else []

/-- The lookup table as R71 fixes it: `'P'` (0x50) is `POWER`, and every other byte is what the provisioned table has
for it. -/
def lut (cfg : Config) (c : Byte) : Option WaveformId :=
  if c = 0x50 then some .power else cfg.lutRest.lookup c

/-- The twelve waveform functions in the order of R70. -/
def functionOrder : List WaveformId :=
  [.power, .volUp, .volDown, .input, .ok, .mute, .menu, .navUp, .navDown, .navLeft, .navRight, .escape]

/-- The loop of R105 as the spec writes it, with its two results: the waveform functions found, and how many unmapped
codes were absorbed. `left` iterations are left, `k` is the slot. -/
def projLoop (cfg : Config) (cmd : List Slot) : (left k : Nat) → List WaveformId × Nat
  | 0, _ => ([], 0)
  | left + 1, k =>
    if lowByte (cmd.getD k 0) = 0 then ([], 0)
    else
      match lut cfg (lowByte (cmd.getD k 0)) with
      | some w => (w :: (projLoop cfg cmd left (k + 1)).1, (projLoop cfg cmd left (k + 1)).2)
      | none => ((projLoop cfg cmd left (k + 1)).1, (projLoop cfg cmd left (k + 1)).2 + 1)

/-- The projector scan of a state: `projLoop` for k = 1 to min(count, CMD_CAP - 1) (R105). -/
def projScan (s : State) : List WaveformId × Nat :=
  projLoop s.cfg s.cmd (min (lowByte (s.cmd.getD 0 0)).toNat (s.cfg.cmdCap - 1)) 1

/-- The slots of a buffer are all the sentinel 0. -/
abbrev allZero (slots : List Slot) : Prop := ∀ v ∈ slots, v = 0

/-- The operation is a write transaction. -/
def isWrite : Instr → Bool
  | .writeEmpty => true
  | .writeProj _ => true
  | .writeRaw _ => true
  | .writeOther _ _ => true
  | .read _ => false
  | .tick => false
  | .swap => false
  | .drainEmit1 _ => false
  | .drainWait _ => false
  | .drainEmit2 _ _ => false

end Sys2Proof.Spec

open Sys2Proof.Spec

/-! ## Reset, invariant, and no stop -/

/-- R135: what reset leaves, every element of R17, and the block then waits: with no event listed a step leaves the
state as it is. -/
def Obligations.ResetGivesEveryElementItsValue : Prop :=
  State.reset.cmd = List.replicate State.reset.cfg.cmdCap 0 ∧
  State.reset.raw = List.replicate State.reset.cfg.rawCap 0 ∧
  State.reset.cursor = 0 ∧ State.reset.mode = .none ∧ State.reset.hstate = .idle ∧ State.reset.txnOpen = false ∧
  State.reset.hi = 0 ∧ State.reset.hiValid = false ∧ State.reset.tickPending = false ∧
  State.reset.sstate = .idle ∧ State.reset.plan = [] ∧
  step State.reset = .next State.reset

/-- The invariant holds at reset, with every event still to come listed in an order that can come. -/
def Obligations.InvariantHoldsAtReset : Prop :=
  ∀ evs : List Event, agendaOk false evs = true → RunInv { State.reset with agenda := evs }

/-- Every step keeps the invariant (R20, R23, R26, R27, R29, R115), from every state that has it. -/
def Obligations.StepKeepsInvariant : Prop :=
  ∀ s t : State, RunInv s → step s = .next t → RunInv t

/-- The block never faults, never refuses and is never stuck (R73, R118, R127): a step is always a next state. The
refusals it excludes are the model's: an operation that is not enabled, log 9, and a port event out of order, log 10. -/
def Obligations.StepNeverStops : Prop :=
  ∀ s : State, RunInv s → ∃ t : State, step s = .next t

/-- R20: in every run from reset, under any events in any order that can come, the upper byte of every `CMD` slot
is 0. -/
def Obligations.CmdUpperBytesAreZeroInEveryRun : Prop :=
  ∀ (evs : List Event) (k : Nat), agendaOk false evs = true →
    ∃ t : State,
      core.run k { State.reset with agenda := evs } = .next t ∧ ∀ (i : Nat) v, t.cmd[i]? = some v → highByte v = 0

/-- R30: no event writes the configuration. -/
def Obligations.NoStepWritesTheConfiguration : Prop :=
  ∀ s t : State, step s = .next t → t.cfg = s.cfg

/-- R137: a reset abandons an open write and an undrained plan, and every element of R17 takes its reset value. What
stays (the configuration, and the model's own records) is the model's choice, log 10. -/
def Obligations.ResetInUseAbandonsWriteAndPlan : Prop :=
  ∀ (s : State) (rest : List Event), s.agenda = .reset :: rest →
    step s = .next { s with
      agenda := rest, cmd := List.replicate s.cfg.cmdCap 0, raw := List.replicate s.cfg.rawCap 0, cursor := 0,
      mode := .none, hstate := .idle, txnOpen := false, hi := 0, hiValid := false, tickPending := false,
      sstate := .idle, plan := [] }

/-! ## Decoding and the step -/

/-- A few transactions and steps decoded from the spec's own words (R68, R69, R76). That a table word holds the first
byte in bits 7 to 0, which the last two clauses rest on, is the model's choice, log 11. -/
def Obligations.WrittenOutFramesDecode : Prop :=
  decode (.write []) = .writeEmpty ∧
  decode (.write [0x70, 0x01, 0x50]) = .writeProj [0x01, 0x50] ∧
  decode (.write [0x72, 0x01, 0x02, 0x03, 0x04]) = .writeRaw [0x01, 0x02, 0x03, 0x04] ∧
  decode (.write [0x50, 0x01, 0x50]) = .writeOther 0x50 [0x01, 0x50] ∧
  decode (.read 33) = .read 33 ∧ decode .timer = .tick ∧ decode .swap = .swap ∧
  decode (.drain (.emitCH1 .power)) = .drainEmit1 .power ∧ decode (.drain (.wait 3)) = .drainWait 3 ∧
  decode (.drain (.emitCH2 [0x0102] 5)) = .drainEmit2 [0x0102] 5 ∧
  decodeTableWord 24 0x500170 = some (.writeProj [0x01, 0x50]) ∧ decodeTableWord 8 0x72 = some (.writeRaw [])

/-- Decoding an encoded well-formed operation gives it back, as a frame and as a table word, and encoding a decoded
frame gives the frame back: no byte of a transaction is dropped (R64 to R69). -/
def Obligations.DecodeUndoesEncode : Prop :=
  (∀ (cfg : Config) (i : Instr), Instr.wellFormed cfg i = true → decode (encode i) = i) ∧
  (∀ f : Frame, encode (decode f) = f) ∧
  (∀ (cfg : Config) (i : Instr) (n w : Nat),
     Instr.wellFormed cfg i = true → encodeTableWord i = some (n, w) → decodeTableWord n w = some i)

/-- R69: every bus transaction, timer trigger and internal step is exactly one row of the operation map. `WRITE_OTHER`,
whose pattern takes every first byte, is the row of a write that no other row takes. -/
def Obligations.EveryFrameIsExactlyOneRow : Prop :=
  ∀ f : Frame, tableRow f = some (decode f).mnemonic ∧
    ((opcodeTable.filter (fun r => r.selector.takes f && r.mnemonic != "WRITE_OTHER")).map Row.mnemonic =
      if (decode f).mnemonic = "WRITE_OTHER" then [] else [(decode f).mnemonic])

/-- A step runs the decoded operation, at the state with its event taken: a transaction to `BUS_ADDR`, the timer's
trigger, and at the block's own turn the swap where R102 enables it, else the drain of the head of the plan. That the
own turn also comes where no event is listed is the model's choice, log 2. -/
def Obligations.StepRunsTheDecodedOperation : Prop :=
  ∀ (s : State) (rest : List Event),
    (∀ bytes : List Byte, s.agenda = .busWrite s.cfg.busAddr bytes :: rest →
      step s = exec (decode (.write bytes)) { s with agenda := rest }) ∧
    (∀ n : Nat,
       s.agenda = .busRead s.cfg.busAddr n :: rest → step s = exec (decode (.read n)) { s with agenda := rest }) ∧
    (s.agenda = .timer :: rest → step s = exec (decode .timer) { s with agenda := rest }) ∧
    ((s.agenda = .own :: rest ∨ s.agenda = [] ∧ rest = []) → swapEnabled s = true →
      step s = exec (decode .swap) { s with agenda := rest }) ∧
    (∀ (a : Action) (more : List Action),
       (s.agenda = .own :: rest ∨ s.agenda = [] ∧ rest = []) → s.sstate = .drain → s.plan = a :: more →
      step s = exec (decode (.drain a)) { s with agenda := rest }) ∧
    ((s.agenda = .own :: rest ∨ s.agenda = [] ∧ rest = []) → swapEnabled s = false → s.sstate = .idle →
      step s = .next { s with agenda := rest })

/-- R92: a transaction to any other address changes nothing. -/
def Obligations.OtherAddressesAreInvisible : Prop :=
  ∀ (s : State) (rest : List Event) (addr : Nat), addr ≠ s.cfg.busAddr →
    (∀ bytes : List Byte, s.agenda = .busWrite addr bytes :: rest → step s = .next { s with agenda := rest }) ∧
    (∀ n : Nat, s.agenda = .busRead addr n :: rest → step s = .next { s with agenda := rest })

/-! ## The register store -/

/-- R38: `Store` writes the slot at the wrapped cursor, pre-clears slot 0 after a store at the wrap boundary, advances
and wraps the cursor, and changes nothing else. The two buffers are `CMD` with `CMD_CAP` slots and `RAW` with
`RAW_CAP`. -/
def Obligations.StoreWritesWrapsAndPreclears : Prop :=
  (∀ s : State,
    s.buf .cmd = s.cmd ∧ s.buf .raw = s.raw ∧ bufCap s.cfg .cmd = s.cfg.cmdCap ∧ bufCap s.cfg .raw = s.cfg.rawCap) ∧
  ∀ (b : Buf) (v : Slot) (s : State), 2 ≤ bufCap s.cfg b → (s.buf b).length = bufCap s.cfg b →
    (∀ j : Nat, j < bufCap s.cfg b →
      load b j (store b v s) =
        if j = 0 ∧ s.cursor % bufCap s.cfg b = bufCap s.cfg b - 1 then 0
        else if j = s.cursor % bufCap s.cfg b then v else load b j s) ∧
    (store b v s).cursor = (s.cursor % bufCap s.cfg b + 1) % bufCap s.cfg b ∧
    ((store b v s).buf b).length = bufCap s.cfg b ∧
    (∀ c : Buf, c ≠ b → (store b v s).buf c = s.buf c) ∧
    { store b v s with cursor := s.cursor, cmd := s.cmd, raw := s.raw } = s

/-- R39: `Load(buf, cap, i) = buf[i mod cap]`. -/
def Obligations.LoadReadsTheWrappedSlot : Prop :=
  ∀ (i : Nat) (s : State), s.cfg.valid → Memory.wf s →
    s.cmd[i % s.cfg.cmdCap]? = some (load .cmd i s) ∧ s.raw[i % s.cfg.rawCap]? = some (load .raw i s)

/-! ## The byte-level steps of a write -/

/-- R78: `WSTART` opens the transaction and changes nothing else of the block, and while a write is open it cannot
come: no step takes it. (The record of acknowledgements is left to `BlockNeverNacks`, the refusal's name to
`PortEventsOutOfOrderAreRefused`.) -/
def Obligations.StartOpensTheTransaction : Prop :=
  ∀ (s : State) (rest : List Event), s.agenda = .wstart :: rest →
    (s.txnOpen = false → ∃ t : State, step s = .next t ∧ t = { s with agenda := rest, txnOpen := true, acks := t.acks }) ∧
    (s.txnOpen = true → ∀ t : State, step s ≠ .next t)

/-- The port delivers a write's bytes inside its `WSTART` and `WSTOP` (R60, R78): a `WSTART` inside a write, or a byte
or a `WSTOP` outside one, is no event of the block. That the model refuses it, and the refusal's name, is the model's
choice, log 10. -/
def Obligations.PortEventsOutOfOrderAreRefused : Prop :=
  ∀ (s : State) (rest : List Event),
    (s.agenda = .wstart :: rest → s.txnOpen = true → step s = .refused .portOrder) ∧
    (∀ b : Byte, s.agenda = .wbyte b :: rest → s.txnOpen = false → step s = .refused .portOrder) ∧
    (s.agenda = .wstop :: rest → s.txnOpen = false → step s = .refused .portOrder)

/-- R79 with R68: the first byte of a transaction sets the mode, rewinds the cursor and empties the latch. (The record
of acknowledgements is left to `BlockNeverNacks`.) -/
def Obligations.FirstByteIsTheModeByte : Prop :=
  ∀ (s : State) (rest : List Event) (b : Byte), s.agenda = .wbyte b :: rest → s.txnOpen = true → s.hstate = .idle →
    ∃ t : State, step s = .next t ∧ t = { s with
      agenda := rest, mode := if b = 0x70 then .proj else if b = 0x72 then .raw else .none, cursor := 0,
      hiValid := false, hstate := .awaitingPayload, acks := t.acks }

/-- R80: a projector payload byte is stored widened, `BufferOverrun` absorbed where the store wraps. (Absorbing is
recorded as the trace label R118 allows; the record of acknowledgements is left to `BlockNeverNacks`.) -/
def Obligations.ProjectorByteIsStoredWidened : Prop :=
  ∀ (s : State) (rest : List Event) (b : Byte),
    s.agenda = .wbyte b :: rest → s.txnOpen = true → s.hstate = .awaitingPayload → s.mode = .proj →
    ∃ t : State, step s = .next t ∧ t = store .cmd (b.setWidth 16) { s with
      agenda := rest, acks := t.acks,
      absorbed := s.absorbed ++ if s.cursor % s.cfg.cmdCap = s.cfg.cmdCap - 1 then [.bufferOverrun] else [] }

/-- R81: in raw-ir mode the first byte of a pair is latched and nothing is stored; the second stores the big-endian
pair. (Absorbing is recorded as the trace label R118 allows; the record of acknowledgements is left to
`BlockNeverNacks`.) -/
def Obligations.RawBytesArePairedBigEndian : Prop :=
  ∀ (s : State) (rest : List Event) (b : Byte),
    s.agenda = .wbyte b :: rest → s.txnOpen = true → s.hstate = .awaitingPayload → s.mode = .raw →
    (s.hiValid = false →
      ∃ t : State, step s = .next t ∧ t = { s with agenda := rest, acks := t.acks, hi := b, hiValid := true }) ∧
    (s.hiValid = true →
      ∃ t : State, step s = .next t ∧ t = { store .raw (s.hi ++ b) { s with
          agenda := rest, acks := t.acks,
          absorbed := s.absorbed ++ if s.cursor % s.cfg.rawCap = s.cfg.rawCap - 1 then [.bufferOverrun] else [] } with
        hiValid := false })

/-- R82: in mode `NONE` a payload byte is discarded, and no state changes. (Absorbing is recorded as the trace label
R118 allows; the record of acknowledgements is left to `BlockNeverNacks`.) -/
def Obligations.PayloadWithoutModeIsDiscarded : Prop :=
  ∀ (s : State) (rest : List Event) (b : Byte),
    s.agenda = .wbyte b :: rest → s.txnOpen = true → s.hstate = .awaitingPayload → s.mode = .none →
    ∃ t : State, step s = .next t ∧ t = { s with
      agenda := rest, acks := t.acks, absorbed := s.absorbed ++ [.unrecognizedMode] }

/-- R83 to R86: `WSTOP` closes the transaction; no byte is class `ZeroLength`; an unpaired raw byte is dropped, padded
or rejected by the policy. (Absorbing is recorded as the trace label R118 allows.) -/
def Obligations.StopClosesAndAppliesTheOddPolicy : Prop :=
  ∀ (s : State) (rest : List Event), s.agenda = .wstop :: rest → s.txnOpen = true →
    (s.hstate = .idle →
      step s = .next { s with
        agenda := rest, absorbed := s.absorbed ++ [.zeroLength], hiValid := false, txnOpen := false }) ∧
    (s.hstate = .awaitingPayload → ¬ (s.mode = .raw ∧ s.hiValid = true) →
      step s = .next { s with agenda := rest, hiValid := false, hstate := .idle, txnOpen := false }) ∧
    (s.hstate = .awaitingPayload → s.mode = .raw → s.hiValid = true →
      (s.cfg.oddPolicy = .drop →
        step s = .next { s with
          agenda := rest, absorbed := s.absorbed ++ [.oddLength], hiValid := false, hstate := .idle,
          txnOpen := false }) ∧
      (s.cfg.oddPolicy = .pad →
        step s = .next { store .raw (s.hi ++ (0x00 : Byte)) { s with
            agenda := rest,
            absorbed := s.absorbed ++ [.oddLength] ++
              if s.cursor % s.cfg.rawCap = s.cfg.rawCap - 1 then [.bufferOverrun] else [] } with
          hiValid := false, hstate := .idle, txnOpen := false }) ∧
      (s.cfg.oddPolicy = .reject →
        step s = .next { s with
          agenda := rest, absorbed := s.absorbed ++ [.oddLength], mode := .none, hiValid := false, hstate := .idle,
          txnOpen := false }))

/-! ## Whole write transactions -/

/-- R87: delivering a write byte by byte is the same as the one atomic event, and it comes to an end. -/
def Obligations.ByteStepsMakeTheWholeWrite : Prop :=
  ∀ (s : State) (bytes : List Byte) (rest : List Event), s.txnOpen = false →
    ∃ t : State, core.run (bytes.length + 2) { s with agenda := portEvents bytes ++ rest } = .next t ∧
      exec (decode (.write bytes)) { s with agenda := rest } = .next t

/-- R88: `WRITE_EMPTY` completes and changes no state. (Absorbing is recorded as the trace label R118 allows; the record
of acknowledgements is left to `BlockNeverNacks`.) -/
def Obligations.EmptyWriteIsANoOp : Prop :=
  encode .writeEmpty = .write [] ∧
  ∀ s : State, RunInv s → s.txnOpen = false →
    ∃ t : State,
      exec .writeEmpty s = .next t ∧ t = { s with absorbed := s.absorbed ++ [.zeroLength], acks := t.acks }

/-- R89 in the closed form of R87: `WRITE_PROJ` completes, and what it leaves, every other element unchanged. (The
labels and the acknowledgement record are the model's, log 7 and log 8.) -/
def Obligations.ProjectorWriteClosedForm : Prop :=
  ∀ payload : List Byte, encode (.writeProj payload) = .write (0x70 :: payload) ∧
  ∀ s : State, RunInv s → s.txnOpen = false →
    ∃ t : State, exec (.writeProj payload) s = .next t ∧
      t = { s with
        mode := .proj, cursor := payload.length % s.cfg.cmdCap, cmd := t.cmd,
        absorbed := s.absorbed ++ List.replicate (payload.length / s.cfg.cmdCap) .bufferOverrun,
        acks := s.acks ++ List.replicate (payload.length + 2) .ack } ∧
      t.cmd.length = s.cfg.cmdCap ∧
      ∀ i : Nat, i < s.cfg.cmdCap →
        load .cmd i t = slotAfter (payload.map (fun b => b.setWidth 16)) s.cfg.cmdCap (load .cmd i s) i

/-- R90 in the closed form of R87: `WRITE_RAW` completes under every odd-length policy, and what it leaves, every other
element unchanged. The latch `HI` keeps the last first byte (log 12). (The labels and the acknowledgement record are
the model's, log 7 and log 8.) -/
def Obligations.RawWriteClosedForm : Prop :=
  ∀ payload : List Byte, encode (.writeRaw payload) = .write (0x72 :: payload) ∧
  ∀ s : State, RunInv s → s.txnOpen = false →
    ∃ t : State, exec (.writeRaw payload) s = .next t ∧
      t = { s with
        mode := if payload.length % 2 = 1 ∧ s.cfg.oddPolicy = .reject then .none else .raw,
        cursor := (rawStores s.cfg.oddPolicy payload).length % s.cfg.rawCap, raw := t.raw,
        hi := (payload[2 * ((payload.length - 1) / 2)]?).getD s.hi,
        absorbed := s.absorbed ++ List.replicate (payload.length / 2 / s.cfg.rawCap) .bufferOverrun ++
          (if payload.length % 2 = 1 then [.oddLength] else []) ++
          (if payload.length % 2 = 1 ∧ s.cfg.oddPolicy = .pad ∧
              payload.length / 2 % s.cfg.rawCap = s.cfg.rawCap - 1 then [.bufferOverrun] else []),
        acks := s.acks ++ List.replicate (payload.length + 2) .ack } ∧
      t.raw.length = s.cfg.rawCap ∧
      ∀ i : Nat, i < s.cfg.rawCap →
        load .raw i t = slotAfter (rawStores s.cfg.oddPolicy payload) s.cfg.rawCap (load .raw i s) i

/-- R91: `WRITE_OTHER` completes, sets `MODE = NONE`, rewinds the cursor and stores nothing. (The labels, one per
payload byte (R123), and the acknowledgement record are the model's, log 7 and log 8.) -/
def Obligations.OtherWriteSetsNoModeAndStoresNothing : Prop :=
  ∀ (selector : Byte) (payload : List Byte), selector ≠ 0x70 → selector ≠ 0x72 →
  encode (.writeOther selector payload) = .write (selector :: payload) ∧
  ∀ s : State, RunInv s → s.txnOpen = false →
    exec (.writeOther selector payload) s = .next { s with
      mode := .none, cursor := 0,
      absorbed := s.absorbed ++ List.replicate payload.length .unrecognizedMode,
      acks := s.acks ++ List.replicate (payload.length + 2) .ack }

/-- The bus carries one transaction at a time (R53, R78, R95): while a write is open no whole transaction occurs. The
name of the refusal is the model's, log 9. -/
def Obligations.NoTransactionInsideAnother : Prop :=
  ∀ s : State, s.txnOpen = true → ∀ (selector : Byte) (payload : List Byte) (n : Nat),
    exec .writeEmpty s = .refused .busBusy ∧ exec (.writeProj payload) s = .refused .busBusy ∧
    exec (.writeRaw payload) s = .refused .busBusy ∧
    exec (.writeOther selector payload) s = .refused .busBusy ∧ exec (.read n) s = .refused .busBusy

/-- Filling a buffer exactly pre-clears its slot 0, so the next swap plans nothing (R38, R142, R143): a projector
payload of `CMD_CAP` bytes, a raw payload of `RAW_CAP` pairs. -/
def Obligations.ExactlyFullBufferPlansNothing : Prop :=
  ∀ (s : State) (payload : List Byte), RunInv s → s.txnOpen = false →
    (payload.length = s.cfg.cmdCap →
      ∃ t : State, exec (.writeProj payload) s = .next t ∧ planOf t.cfg t.mode t.cmd t.raw = []) ∧
    (payload.length = 2 * s.cfg.rawCap →
      ∃ t : State, exec (.writeRaw payload) s = .next t ∧ planOf t.cfg t.mode t.cmd t.raw = [])

/-- The block acknowledges and never signals refusal (R93): every step adds acknowledgements only, and a whole write
adds one for the address and one for every byte. The record itself is the model's, log 8. -/
def Obligations.BlockNeverNacks : Prop :=
  (∀ s t : State, step s = .next t → ∃ k : Nat, t.acks = s.acks ++ List.replicate k .ack) ∧
  (∀ (s : State) (bytes : List Byte), s.txnOpen = false →
    ∃ t : State, exec (decode (.write bytes)) s = .next t ∧ t.acks = s.acks ++ List.replicate (bytes.length + 1) .ack)

/-- Absorbed errors are no state of the block (R118): the recorded labels change nothing a step does. -/
def Obligations.AbsorbedLabelsInfluenceNothing : Prop :=
  ∀ (s : State) (labels : List ErrorClass), withoutLabels (step { s with absorbed := labels }) = withoutLabels (step s)

/-! ## Reads -/

/-- R95 with R37, R98 and R99: `READ` completes with one byte per byte clocked out, the low bytes of the active buffer
from the wrapped cursor on, a free value for each byte beyond the response; the cursor moves one slot past its wrapped
value whatever `n` is; nothing else changes. (The draw counter and the acknowledgement record are the model's, log 3
and log 8.) -/
def Obligations.ReadStreamsTheActiveBufferAndMovesTheCursor : Prop :=
  ∀ (s : State) (n : Nat), RunInv s → s.txnOpen = false → ∀ (b : Buf) (cap start : Nat),
    b = (if s.mode = .raw then Buf.raw else Buf.cmd) →
    cap = (if s.mode = .raw then s.cfg.rawCap else s.cfg.cmdCap) → start = s.cursor % cap →
    ∃ answer : List Byte, answer.length = n ∧
      (∀ k : Nat, k < n → k < cap - start → answer[k]? = some ((load b (start + k) s).setWidth 8)) ∧
      (∀ k : Nat, k < n → cap - start ≤ k →
        answer[k]? = some (Config.readOverrun (s.draws + (k - (cap - start))))) ∧
      exec (.read n) s = .next { s with
        cursor := (start + 1) % cap, obs := s.obs ++ answer.map .delivered, draws := s.draws + (n - (cap - start)),
        acks := s.acks ++ [.ack] }

/-- After k reads with no write between, from a cursor in range, the cursor is k slots on (R97, R100). -/
def Obligations.CursorAfterConsecutiveReads : Prop :=
  ∀ (s : State) (ns : List Nat) (rest : List Event), RunInv s → s.txnOpen = false → s.cursor < modeCap s.cfg s.mode →
    s.agenda = ns.map (Event.busRead s.cfg.busAddr) ++ rest →
    ∃ t : State, core.run ns.length s = .next t ∧ t.cursor = (s.cursor + ns.length) % modeCap s.cfg s.mode ∧
      t.agenda = rest ∧ t.mode = s.mode ∧ t.cmd = s.cmd ∧ t.raw = s.raw

/-- The high byte of a raw code can never be read back (R43, R149): two states that differ only there give every read
the same answer and the same effect. -/
def Obligations.RawHighBytesCannotBeRead : Prop :=
  ∀ (s : State) (raw : List Slot) (n : Nat), s.txnOpen = false → raw.map lowByte = s.raw.map lowByte →
    ∃ t : State, exec (.read n) s = .next t ∧ exec (.read n) { s with raw := raw } = .next { t with raw := raw }

/-- After a swap the buffers read as zero whatever was emitted (R151). -/
def Obligations.ReadsAfterASwapSeeZeros : Prop :=
  ∀ (s : State) (n : Nat), RunInv s → swapEnabled s = true →
    ∃ t u : State, ∃ answer : List Byte, exec .swap s = .next t ∧ exec (.read n) t = .next u ∧
      u.obs = s.obs ++ answer.map .delivered ∧ answer.length = n ∧
      ∀ k : Nat, k < n → k < s.cfg.cmdCap - s.cursor % s.cfg.cmdCap → answer[k]? = some 0

/-! ## The tick and the swap -/

/-- R28: the Tick Timer sets `TICK_PENDING` and changes nothing else, a trigger that finds it set merges into it, and
the swap clears it. -/
def Obligations.TickTriggersMergeUntilTheSwap : Prop :=
  (∀ s : State, exec .tick s = .next { s with tickPending := true }) ∧
  (∀ s : State, s.tickPending = true → exec .tick s = .next s) ∧
  (∀ s : State, swapEnabled s = true → ∃ t : State, exec .swap s = .next t ∧ t.tickPending = false)

/-- R102: the swap is enabled exactly when a tick is pending, no write is open and no drain is in progress; where it is
enabled, no drain step is, and a bus transaction may still come first. -/
def Obligations.SwapIsEnabledExactlyWhen : Prop :=
  ∀ s : State,
    (s.tickPending = true ∧ s.txnOpen = false ∧ s.sstate = .idle →
      (∃ t : State, exec .swap s = .next t) ∧ (∀ a : Action, ∀ t : State, exec (decodeAction a) s ≠ .next t) ∧
      (∀ bytes : List Byte,
         ∃ t : State, exec (decode (.write bytes)) s = .next t) ∧ (∀ n : Nat, ∃ t : State, exec (.read n) s = .next t)) ∧
    (¬ (s.tickPending = true ∧ s.txnOpen = false ∧ s.sstate = .idle) → ∀ t : State, exec .swap s ≠ .next t)

/-- R103 with R104 and R108: `SWAP` completes where it is enabled; it plans from the live state, clears both buffers and
the mode, takes the tick, and changes nothing else, the cursor and the handler among it. (What it absorbs is left to
the statements of R105, R106 and R107.) -/
def Obligations.SwapPlansAndClearsAtOnce : Prop :=
  ∀ s : State, s.tickPending = true → s.txnOpen = false → s.sstate = .idle → ∀ p : List Action,
    p = (match s.mode with
      | .proj => planProj s.cfg s.cmd
      | .raw => planRaw s.cfg s.raw
      | .none => []) →
    ∃ t : State, exec .swap s = .next t ∧
      t = { s with
        plan := p, cmd := List.replicate s.cfg.cmdCap 0, raw := List.replicate s.cfg.rawCap 0, mode := .none,
        tickPending := false, sstate := if p = [] then .idle else .drain, absorbed := t.absorbed }

/-- R105: the plan of a projector swap is the interleaving of what the spec's loop finds, and each unmapped code is
absorbed once, with no emission and no wait (R120). The table it consults gives `POWER` for 0x50 (R71 (a)) and for every
other byte what was provisioned. (Absorbing is recorded as the trace label R118 allows.) -/
def Obligations.ProjectorPlanIsTheSpecLoop : Prop :=
  (∀ cfg : Config,
    lookup cfg 0x50 = some .power ∧ ∀ c : Byte, c ≠ 0x50 → lookup cfg c = cfg.lutRest.lookup c) ∧
  ∀ s : State, RunInv s → swapEnabled s = true → s.mode = .proj →
    ∃ t : State, exec .swap s = .next t ∧ t.plan = interleave s.cfg.interCmdDelay (projScan s).1 ∧
      t.absorbed = s.absorbed ++ List.replicate (projScan s).2 .unmappedCommand

/-- The interleaving of R105: emissions at the even places in their order, the inter-command delay at the odd ones,
never before the first, never after the last. -/
def Obligations.WaitsStandOnlyBetweenEmissions : Prop :=
  ∀ s : State, RunInv s → swapEnabled s = true → s.mode = .proj →
    ∃ t : State, exec .swap s = .next t ∧ t.plan.length = 2 * (projScan s).1.length - 1 ∧
      (∀ (i : Nat) (w : WaveformId), (projScan s).1[i]? = some w → t.plan[2 * i]? = some (.emitCH1 w)) ∧
      (∀ i : Nat, i + 1 < (projScan s).1.length → t.plan[2 * i + 1]? = some (.wait s.cfg.interCmdDelay))

/-- R106: the plan of a raw swap is one burst of the codes before the least zero slot, none where slot 0 is zero.
Nothing is absorbed. -/
def Obligations.RawPlanIsTheCodesBeforeTheSentinel : Prop :=
  ∀ s : State, RunInv s → swapEnabled s = true → s.mode = .raw →
    ∃ (t : State) (len : Nat), exec .swap s = .next t ∧ len ≤ s.cfg.rawCap ∧ (∀ j : Nat, j < len → load .raw j s ≠ 0) ∧
      (len < s.cfg.rawCap → load .raw len s = 0) ∧
      t.absorbed = s.absorbed ∧ t.plan = if len = 0 then [] else [.emitCH2 (s.raw.take len) s.cfg.carrierFreq]

/-- R107: in mode `NONE` the plan is empty, and the swap still clears the state. -/
def Obligations.SwapInNoModeEmitsNothingButClears : Prop :=
  ∀ s : State, swapEnabled s = true → s.mode = .none →
    exec .swap s = .next { s with
      plan := [], cmd := List.replicate s.cfg.cmdCap 0, raw := List.replicate s.cfg.rawCap 0, tickPending := false }

/-- R115: the bound on one tick. A projector plan has at most `CMD_CAP - 1` emissions and `CMD_CAP - 2` waits, a raw
plan at most one burst of at most `RAW_CAP` codes. -/
def Obligations.PlanOfOneTickIsBounded : Prop :=
  ∀ s : State, RunInv s → swapEnabled s = true →
    ∃ t : State, exec .swap s = .next t ∧ t.plan.length ≤ 2 * s.cfg.cmdCap - 3 ∧
      (s.mode = .proj →
        (t.plan.filter emits).length ≤ s.cfg.cmdCap - 1 ∧ (t.plan.filter waits).length ≤ s.cfg.cmdCap - 2) ∧
      (s.mode = .raw → t.plan = [] ∨
        ∃ codes : List Slot,
          t.plan = [.emitCH2 codes s.cfg.carrierFreq] ∧ 1 ≤ codes.length ∧ codes.length ≤ s.cfg.rawCap)

/-- R126 with R54: a swap that is enabled and a write that arrives may come in either order. The write first: the swap
plans from what it left. The swap first: the plan is that of the state before the write, which goes into the cleared
buffers and leaves the plan alone. -/
def Obligations.SwapAndWriteInEitherOrder : Prop :=
  ∀ (s : State) (i : Instr), RunInv s → swapEnabled s = true → isWrite i = true →
    (∃ t u : State, exec i s = .next t ∧ exec .swap t = .next u ∧ u.plan = planOf t.cfg t.mode t.cmd t.raw) ∧
    (∃ t u : State, exec .swap s = .next t ∧ exec i t = .next u ∧ u.plan = planOf s.cfg s.mode s.cmd s.raw ∧
      t.cmd = List.replicate s.cfg.cmdCap 0 ∧ t.raw = List.replicate s.cfg.rawCap 0)

/-- R126 of a read and a swap: in either order they leave the same plan, buffers, mode and scheduler. Each order leaves
the cursor R95 gives it, reduced by the capacity of the mode the read finds; so the cursors agree wherever the two
reductions do, outside mode `RAW` and in it while the cursor is below both capacities less one. (The corner left is
log 18.) -/
def Obligations.SwapAndReadInEitherOrder : Prop :=
  ∀ (s : State) (n : Nat), RunInv s → swapEnabled s = true →
    ∃ t u v w : State, exec (.read n) s = .next t ∧ exec .swap t = .next u ∧ exec .swap s = .next v ∧
      exec (.read n) v = .next w ∧
      { u with cursor := s.cursor, obs := s.obs, draws := s.draws } =
        { w with cursor := s.cursor, obs := s.obs, draws := s.draws } ∧
      u.cursor = (if s.mode = .raw then (s.cursor % s.cfg.rawCap + 1) % s.cfg.rawCap
        else (s.cursor % s.cfg.cmdCap + 1) % s.cfg.cmdCap) ∧
      w.cursor = (s.cursor % s.cfg.cmdCap + 1) % s.cfg.cmdCap ∧
      (s.mode ≠ .raw ∨ s.cfg.cmdCap = s.cfg.rawCap ∨
          (s.cursor + 1 < s.cfg.cmdCap ∧ s.cursor + 1 < s.cfg.rawCap) →
        u.cursor = w.cursor)

/-! ## The drain -/

/-- R109: a drain step performs the head of the plan and takes it off; the last one ends the drain; nothing else
changes. -/
def Obligations.DrainStepTakesTheHeadOfThePlan : Prop :=
  ∀ (s : State) (a : Action) (more : List Action), s.sstate = .drain → s.plan = a :: more →
    exec (decodeAction a) s = .next { s with
      plan := more, sstate := if more = [] then .idle else .drain, obs := s.obs ++ [actionShown s.cfg a] }

/-- R110: `DRAIN_EMIT1` completes where it heads the plan, and hands `WAVEFORM(w)` to channel 1: the entry of the
provisioned codes at the function's own place in the order of R70, where each function stands once. (The record of what
is handed on is the model's, log 6.) -/
def Obligations.DrainEmit1HandsTheWaveformToChannel1 : Prop :=
  functionOrder.Nodup ∧
  ∀ (s : State) (w : WaveformId) (more : List Action), s.sstate = .drain → s.plan = .emitCH1 w :: more →
    ∃ place : Fin 12, functionOrder[place.val]? = some w ∧
      exec (.drainEmit1 w) s = .next { s with
        plan := more, sstate := if more = [] then .idle else .drain,
        obs := s.obs ++ [.sent1 w s.cfg.waveforms[place]] }

/-- R111: `DRAIN_WAIT` completes where it heads the plan, and emits nothing. -/
def Obligations.DrainWaitEmitsNothing : Prop :=
  ∀ (s : State) (d : Duration) (more : List Action), s.sstate = .drain → s.plan = .wait d :: more →
    ∃ t : State, exec (.drainWait d) s = .next t ∧
      t = { s with
        plan := more, sstate := if more = [] then .idle else .drain, obs := s.obs ++ [.waited d] } ∧
      t.emissions = s.emissions

/-- R112: `DRAIN_EMIT2` completes where it heads the plan, and hands the codes in order and the carrier to channel 2. -/
def Obligations.DrainEmit2HandsTheBurstToChannel2 : Prop :=
  ∀ (s : State) (codes : List Slot) (f : Frequency) (more : List Action),
    s.sstate = .drain → s.plan = .emitCH2 codes f :: more →
    exec (.drainEmit2 codes f) s = .next { s with
      plan := more, sstate := if more = [] then .idle else .drain, obs := s.obs ++ [.sent2 codes f] }

/-- A drain operation occurs only while a drain is in progress and its action heads the plan (R69, R109). The name of
the refusal is the model's, log 9. -/
def Obligations.DrainOperationNeedsItsAction : Prop :=
  ∀ (s : State) (a : Action), ¬ (s.sstate = .drain ∧ ∃ more : List Action, s.plan = a :: more) →
    exec (decodeAction a) s = .refused .drainNotEnabled

/-- R113 with R109 and R115: left to itself the drain performs the whole plan in its order, in as many steps as the
plan has actions, and ends idle. (That a step with no event listed is the block's own turn is the model's choice,
log 2.) -/
def Obligations.DrainPerformsThePlanInOrder : Prop :=
  ∀ s : State, RunInv s → s.sstate = .drain → s.agenda = [] →
    core.run s.plan.length s = .next { s with
      plan := [], sstate := .idle, obs := s.obs ++ s.plan.map (actionShown s.cfg) }

/-- R55 and R114: a drain step and a write or a tick commute, whichever comes first. -/
def Obligations.DrainCommutesWithWritesAndTicks : Prop :=
  ∀ (s : State) (i : Instr) (a : Action) (t u : State),
    (isWrite i = true ∨ i = .tick) → exec i s = .next t → exec (decodeAction a) s = .next u →
    ∃ v : State, exec (decodeAction a) t = .next v ∧ exec i u = .next v

/-- R48, R55 and R114: a drain step and a read commute but for the place of their observations: the block's state is
the same, and each of the two sequences of R16 is. -/
def Obligations.DrainCommutesWithReads : Prop :=
  ∀ (s : State) (n : Nat) (a : Action) (t u : State), exec (.read n) s = .next t → exec (decodeAction a) s = .next u →
    ∃ v w : State, exec (decodeAction a) t = .next v ∧ exec (.read n) u = .next w ∧
      { v with obs := [] } = { w with obs := [] } ∧ v.actions = w.actions ∧
      v.obs.filter (fun o => !o.isAction) = w.obs.filter (fun o => !o.isAction)

/-- R152 and R154, bounded: with no event outstanding the block comes to rest within `4 * CMD_CAP - 5` steps, a drain
under way, the pending swap and its drain included. Quiescent is what R154 says. (That a step with no event listed is
the block's own turn is the model's choice, log 2.) -/
def Obligations.BlockReachesQuiescence : Prop :=
  (∀ s : State, quiescent s = true ↔ s.txnOpen = false ∧ s.sstate = .idle ∧ s.tickPending = false) ∧
  ∀ s : State, RunInv s → s.txnOpen = false → s.agenda = [] →
    ∃ (k : Nat) (t : State), k ≤ 4 * s.cfg.cmdCap - 5 ∧ core.run k s = .next t ∧ quiescent t = true

/-! ## Whole runs -/

/-- R116: after a swap, with no write to the block among the events that follow, the mode stays `NONE` and whatever is
performed is the rest of that swap's plan: a further tick emits nothing, reads, resets and transactions to other
addresses between or not. -/
def Obligations.NoWriteNoFurtherEmission : Prop :=
  ∀ s t : State, RunInv s → exec .swap s = .next t →
    (∀ ev ∈ t.agenda, isNoWrite t.cfg.busAddr ev = true) → ∀ k : Nat,
    ∃ (u : State) (m : Nat), core.run k t = .next u ∧ u.mode = .none ∧
      u.actions = t.actions ++ (t.plan.take m).map (actionShown t.cfg)

/-- R116 as an invariant: with no write to the block still to come, every step keeps `MODE = NONE`, the plan left a
suffix of the swap's plan (or abandoned by a reset), and the actions performed that plan's beginning. -/
def Obligations.EveryStepKeepsTheQuietInvariant : Prop :=
  ∀ (plan : List Action) (before : List Obs) (s t : State),
    quietInv plan before s → step s = .next t → quietInv plan before t

/-- The quiet invariant of R116 holds right after a swap, of that swap's plan, and at reset, of no plan, with no write
to the block still to come. -/
def Obligations.QuietInvariantHoldsAfterASwapAndAtReset : Prop :=
  (∀ s t : State, RunInv s → exec .swap s = .next t →
    (∀ ev ∈ t.agenda, isNoWrite t.cfg.busAddr ev = true) → quietInv t.plan t.actions t) ∧
  (∀ evs : List Event, agendaOk false evs = true → (∀ ev ∈ evs, isNoWrite State.reset.cfg.busAddr ev = true) →
    quietInv [] [] { State.reset with agenda := evs })

/-- R143: from rest, with the raw buffer clear, a raw write of 1 to `RAW_CAP - 1` nonzero codes, then a tick, emits
exactly one burst of the same codes in the same order, and leaves the buffers clear. (That the steps with no event
listed are the block's own turns is the model's choice, log 2.) -/
def Obligations.RawCodesReachChannel2Intact : Prop :=
  ∀ (s : State) (codes : List Slot),
    RunInv s → quiescent s = true → allZero s.raw → codes ≠ [] → codes.length < s.cfg.rawCap →
    (∀ v ∈ codes, v ≠ 0) → s.agenda = pseudoRawsend s.cfg.busAddr codes ++ [.timer] →
    ∃ t : State, core.run 4 s = .next t ∧ t.obs = s.obs ++ [.sent2 codes s.cfg.carrierFreq] ∧ quiescent t = true ∧
      t.agenda = [] ∧ t.mode = .none ∧ allZero t.cmd ∧ allZero t.raw

/-- R142: from rest, a projector write of its count and at most `CMD_CAP - 2` nonzero codes, then a tick, emits the
waveforms of the mapped codes in order with a wait between two, whatever the buffers held, and leaves them clear. The
table is that of R71. (That the steps with no event listed are the block's own turns is the model's choice, log 2.) -/
def Obligations.ProjectorCodesReachChannel1Intact : Prop :=
  ∀ (s : State) (codes : List Byte),
    RunInv s → quiescent s = true → codes.length ≤ s.cfg.cmdCap - 2 → codes.length ≤ 255 →
    (∀ c ∈ codes, c ≠ 0) → s.agenda = pseudoProj s.cfg.busAddr codes ++ [.timer] → ∀ p : List Action,
    p = interleave s.cfg.interCmdDelay (codes.filterMap (lut s.cfg)) →
    ∃ t : State, core.run (3 + p.length) s = .next t ∧ t.obs = s.obs ++ p.map (actionShown s.cfg) ∧
      quiescent t = true ∧ t.agenda = [] ∧ t.mode = .none ∧ allZero t.cmd ∧ allZero t.raw
end

