-- ==== Sys2Proof/Laws/State.lean ====
section
/-! SUPPORT. What each update of the state does to each field: one lemma a field and update, so that no later proof
unfolds a record update. -/

namespace Sys2Proof.Machine

@[simp] theorem absorb_cfg (c : ErrorClass) (s : State) : (absorb c s).cfg = s.cfg := rfl
@[simp] theorem absorb_cmd (c : ErrorClass) (s : State) : (absorb c s).cmd = s.cmd := rfl
@[simp] theorem absorb_raw (c : ErrorClass) (s : State) : (absorb c s).raw = s.raw := rfl
@[simp] theorem absorb_cursor (c : ErrorClass) (s : State) : (absorb c s).cursor = s.cursor := rfl
@[simp] theorem absorb_mode (c : ErrorClass) (s : State) : (absorb c s).mode = s.mode := rfl
@[simp] theorem absorb_hstate (c : ErrorClass) (s : State) : (absorb c s).hstate = s.hstate := rfl
@[simp] theorem absorb_txnOpen (c : ErrorClass) (s : State) : (absorb c s).txnOpen = s.txnOpen := rfl
@[simp] theorem absorb_hi (c : ErrorClass) (s : State) : (absorb c s).hi = s.hi := rfl
@[simp] theorem absorb_hiValid (c : ErrorClass) (s : State) : (absorb c s).hiValid = s.hiValid := rfl
@[simp] theorem absorb_tickPending (c : ErrorClass) (s : State) : (absorb c s).tickPending = s.tickPending := rfl
@[simp] theorem absorb_sstate (c : ErrorClass) (s : State) : (absorb c s).sstate = s.sstate := rfl
@[simp] theorem absorb_plan (c : ErrorClass) (s : State) : (absorb c s).plan = s.plan := rfl
@[simp] theorem absorb_agenda (c : ErrorClass) (s : State) : (absorb c s).agenda = s.agenda := rfl
@[simp] theorem absorb_draws (c : ErrorClass) (s : State) : (absorb c s).draws = s.draws := rfl
@[simp] theorem absorb_obs (c : ErrorClass) (s : State) : (absorb c s).obs = s.obs := rfl
@[simp] theorem absorb_absorbed (c : ErrorClass) (s : State) : (absorb c s).absorbed = s.absorbed ++ [c] := rfl
@[simp] theorem absorb_acks (c : ErrorClass) (s : State) : (absorb c s).acks = s.acks := rfl

@[simp] theorem acknowledge_cfg (s : State) : (acknowledge s).cfg = s.cfg := rfl
@[simp] theorem acknowledge_cmd (s : State) : (acknowledge s).cmd = s.cmd := rfl
@[simp] theorem acknowledge_raw (s : State) : (acknowledge s).raw = s.raw := rfl
@[simp] theorem acknowledge_cursor (s : State) : (acknowledge s).cursor = s.cursor := rfl
@[simp] theorem acknowledge_mode (s : State) : (acknowledge s).mode = s.mode := rfl
@[simp] theorem acknowledge_hstate (s : State) : (acknowledge s).hstate = s.hstate := rfl
@[simp] theorem acknowledge_txnOpen (s : State) : (acknowledge s).txnOpen = s.txnOpen := rfl
@[simp] theorem acknowledge_hi (s : State) : (acknowledge s).hi = s.hi := rfl
@[simp] theorem acknowledge_hiValid (s : State) : (acknowledge s).hiValid = s.hiValid := rfl
@[simp] theorem acknowledge_tickPending (s : State) : (acknowledge s).tickPending = s.tickPending := rfl
@[simp] theorem acknowledge_sstate (s : State) : (acknowledge s).sstate = s.sstate := rfl
@[simp] theorem acknowledge_plan (s : State) : (acknowledge s).plan = s.plan := rfl
@[simp] theorem acknowledge_agenda (s : State) : (acknowledge s).agenda = s.agenda := rfl
@[simp] theorem acknowledge_draws (s : State) : (acknowledge s).draws = s.draws := rfl
@[simp] theorem acknowledge_obs (s : State) : (acknowledge s).obs = s.obs := rfl
@[simp] theorem acknowledge_absorbed (s : State) : (acknowledge s).absorbed = s.absorbed := rfl
@[simp] theorem acknowledge_acks (s : State) : (acknowledge s).acks = s.acks ++ [.ack] := rfl

@[simp] theorem observe_cfg (os : List Obs) (s : State) : (observe os s).cfg = s.cfg := rfl
@[simp] theorem observe_cmd (os : List Obs) (s : State) : (observe os s).cmd = s.cmd := rfl
@[simp] theorem observe_raw (os : List Obs) (s : State) : (observe os s).raw = s.raw := rfl
@[simp] theorem observe_cursor (os : List Obs) (s : State) : (observe os s).cursor = s.cursor := rfl
@[simp] theorem observe_mode (os : List Obs) (s : State) : (observe os s).mode = s.mode := rfl
@[simp] theorem observe_hstate (os : List Obs) (s : State) : (observe os s).hstate = s.hstate := rfl
@[simp] theorem observe_txnOpen (os : List Obs) (s : State) : (observe os s).txnOpen = s.txnOpen := rfl
@[simp] theorem observe_hi (os : List Obs) (s : State) : (observe os s).hi = s.hi := rfl
@[simp] theorem observe_hiValid (os : List Obs) (s : State) : (observe os s).hiValid = s.hiValid := rfl
@[simp] theorem observe_tickPending (os : List Obs) (s : State) : (observe os s).tickPending = s.tickPending := rfl
@[simp] theorem observe_sstate (os : List Obs) (s : State) : (observe os s).sstate = s.sstate := rfl
@[simp] theorem observe_plan (os : List Obs) (s : State) : (observe os s).plan = s.plan := rfl
@[simp] theorem observe_agenda (os : List Obs) (s : State) : (observe os s).agenda = s.agenda := rfl
@[simp] theorem observe_draws (os : List Obs) (s : State) : (observe os s).draws = s.draws := rfl
@[simp] theorem observe_obs (os : List Obs) (s : State) : (observe os s).obs = s.obs ++ os := rfl
@[simp] theorem observe_absorbed (os : List Obs) (s : State) : (observe os s).absorbed = s.absorbed := rfl
@[simp] theorem observe_acks (os : List Obs) (s : State) : (observe os s).acks = s.acks := rfl

@[simp] theorem wstart_cfg (s : State) : (wstart s).cfg = s.cfg := rfl
@[simp] theorem wstart_cmd (s : State) : (wstart s).cmd = s.cmd := rfl
@[simp] theorem wstart_raw (s : State) : (wstart s).raw = s.raw := rfl
@[simp] theorem wstart_cursor (s : State) : (wstart s).cursor = s.cursor := rfl
@[simp] theorem wstart_mode (s : State) : (wstart s).mode = s.mode := rfl
@[simp] theorem wstart_hstate (s : State) : (wstart s).hstate = s.hstate := rfl
@[simp] theorem wstart_txnOpen (s : State) : (wstart s).txnOpen = true := rfl
@[simp] theorem wstart_hi (s : State) : (wstart s).hi = s.hi := rfl
@[simp] theorem wstart_hiValid (s : State) : (wstart s).hiValid = s.hiValid := rfl
@[simp] theorem wstart_tickPending (s : State) : (wstart s).tickPending = s.tickPending := rfl
@[simp] theorem wstart_sstate (s : State) : (wstart s).sstate = s.sstate := rfl
@[simp] theorem wstart_plan (s : State) : (wstart s).plan = s.plan := rfl
@[simp] theorem wstart_agenda (s : State) : (wstart s).agenda = s.agenda := rfl
@[simp] theorem wstart_draws (s : State) : (wstart s).draws = s.draws := rfl
@[simp] theorem wstart_obs (s : State) : (wstart s).obs = s.obs := rfl
@[simp] theorem wstart_absorbed (s : State) : (wstart s).absorbed = s.absorbed := rfl
@[simp] theorem wstart_acks (s : State) : (wstart s).acks = s.acks ++ [.ack] := rfl

@[simp] theorem modeByte_cfg (b : Byte) (s : State) : (modeByte b s).cfg = s.cfg := rfl
@[simp] theorem modeByte_cmd (b : Byte) (s : State) : (modeByte b s).cmd = s.cmd := rfl
@[simp] theorem modeByte_raw (b : Byte) (s : State) : (modeByte b s).raw = s.raw := rfl
@[simp] theorem modeByte_cursor (b : Byte) (s : State) : (modeByte b s).cursor = 0 := rfl
@[simp] theorem modeByte_mode (b : Byte) (s : State) : (modeByte b s).mode = decodeMode b := rfl
@[simp] theorem modeByte_hstate (b : Byte) (s : State) : (modeByte b s).hstate = .awaitingPayload := rfl
@[simp] theorem modeByte_txnOpen (b : Byte) (s : State) : (modeByte b s).txnOpen = s.txnOpen := rfl
@[simp] theorem modeByte_hi (b : Byte) (s : State) : (modeByte b s).hi = s.hi := rfl
@[simp] theorem modeByte_hiValid (b : Byte) (s : State) : (modeByte b s).hiValid = false := rfl
@[simp] theorem modeByte_tickPending (b : Byte) (s : State) : (modeByte b s).tickPending = s.tickPending := rfl
@[simp] theorem modeByte_sstate (b : Byte) (s : State) : (modeByte b s).sstate = s.sstate := rfl
@[simp] theorem modeByte_plan (b : Byte) (s : State) : (modeByte b s).plan = s.plan := rfl
@[simp] theorem modeByte_agenda (b : Byte) (s : State) : (modeByte b s).agenda = s.agenda := rfl
@[simp] theorem modeByte_draws (b : Byte) (s : State) : (modeByte b s).draws = s.draws := rfl
@[simp] theorem modeByte_obs (b : Byte) (s : State) : (modeByte b s).obs = s.obs := rfl
@[simp] theorem modeByte_absorbed (b : Byte) (s : State) : (modeByte b s).absorbed = s.absorbed := rfl
@[simp] theorem modeByte_acks (b : Byte) (s : State) : (modeByte b s).acks = s.acks := rfl

@[simp] theorem closeTxn_cfg (s : State) : (closeTxn s).cfg = s.cfg := rfl
@[simp] theorem closeTxn_cmd (s : State) : (closeTxn s).cmd = s.cmd := rfl
@[simp] theorem closeTxn_raw (s : State) : (closeTxn s).raw = s.raw := rfl
@[simp] theorem closeTxn_cursor (s : State) : (closeTxn s).cursor = s.cursor := rfl
@[simp] theorem closeTxn_mode (s : State) : (closeTxn s).mode = s.mode := rfl
@[simp] theorem closeTxn_hstate (s : State) : (closeTxn s).hstate = .idle := rfl
@[simp] theorem closeTxn_txnOpen (s : State) : (closeTxn s).txnOpen = false := rfl
@[simp] theorem closeTxn_hi (s : State) : (closeTxn s).hi = s.hi := rfl
@[simp] theorem closeTxn_hiValid (s : State) : (closeTxn s).hiValid = false := rfl
@[simp] theorem closeTxn_tickPending (s : State) : (closeTxn s).tickPending = s.tickPending := rfl
@[simp] theorem closeTxn_sstate (s : State) : (closeTxn s).sstate = s.sstate := rfl
@[simp] theorem closeTxn_plan (s : State) : (closeTxn s).plan = s.plan := rfl
@[simp] theorem closeTxn_agenda (s : State) : (closeTxn s).agenda = s.agenda := rfl
@[simp] theorem closeTxn_draws (s : State) : (closeTxn s).draws = s.draws := rfl
@[simp] theorem closeTxn_obs (s : State) : (closeTxn s).obs = s.obs := rfl
@[simp] theorem closeTxn_absorbed (s : State) : (closeTxn s).absorbed = s.absorbed := rfl
@[simp] theorem closeTxn_acks (s : State) : (closeTxn s).acks = s.acks := rfl

@[simp] theorem raiseTick_cfg (s : State) : (raiseTick s).cfg = s.cfg := rfl
@[simp] theorem raiseTick_cmd (s : State) : (raiseTick s).cmd = s.cmd := rfl
@[simp] theorem raiseTick_raw (s : State) : (raiseTick s).raw = s.raw := rfl
@[simp] theorem raiseTick_cursor (s : State) : (raiseTick s).cursor = s.cursor := rfl
@[simp] theorem raiseTick_mode (s : State) : (raiseTick s).mode = s.mode := rfl
@[simp] theorem raiseTick_hstate (s : State) : (raiseTick s).hstate = s.hstate := rfl
@[simp] theorem raiseTick_txnOpen (s : State) : (raiseTick s).txnOpen = s.txnOpen := rfl
@[simp] theorem raiseTick_hi (s : State) : (raiseTick s).hi = s.hi := rfl
@[simp] theorem raiseTick_hiValid (s : State) : (raiseTick s).hiValid = s.hiValid := rfl
@[simp] theorem raiseTick_tickPending (s : State) : (raiseTick s).tickPending = true := rfl
@[simp] theorem raiseTick_sstate (s : State) : (raiseTick s).sstate = s.sstate := rfl
@[simp] theorem raiseTick_plan (s : State) : (raiseTick s).plan = s.plan := rfl
@[simp] theorem raiseTick_agenda (s : State) : (raiseTick s).agenda = s.agenda := rfl
@[simp] theorem raiseTick_draws (s : State) : (raiseTick s).draws = s.draws := rfl
@[simp] theorem raiseTick_obs (s : State) : (raiseTick s).obs = s.obs := rfl
@[simp] theorem raiseTick_absorbed (s : State) : (raiseTick s).absorbed = s.absorbed := rfl
@[simp] theorem raiseTick_acks (s : State) : (raiseTick s).acks = s.acks := rfl

@[simp] theorem advance_cfg (s : State) : (advance s).cfg = s.cfg := rfl
@[simp] theorem advance_cmd (s : State) : (advance s).cmd = s.cmd := rfl
@[simp] theorem advance_raw (s : State) : (advance s).raw = s.raw := rfl
@[simp] theorem advance_cursor (s : State) : (advance s).cursor = s.cursor := rfl
@[simp] theorem advance_mode (s : State) : (advance s).mode = s.mode := rfl
@[simp] theorem advance_hstate (s : State) : (advance s).hstate = s.hstate := rfl
@[simp] theorem advance_txnOpen (s : State) : (advance s).txnOpen = s.txnOpen := rfl
@[simp] theorem advance_hi (s : State) : (advance s).hi = s.hi := rfl
@[simp] theorem advance_hiValid (s : State) : (advance s).hiValid = s.hiValid := rfl
@[simp] theorem advance_tickPending (s : State) : (advance s).tickPending = s.tickPending := rfl
@[simp] theorem advance_sstate (s : State) : (advance s).sstate = s.sstate := rfl
@[simp] theorem advance_plan (s : State) : (advance s).plan = s.plan := rfl
@[simp] theorem advance_agenda (s : State) : (advance s).agenda = s.agenda.tail := rfl
@[simp] theorem advance_draws (s : State) : (advance s).draws = s.draws := rfl
@[simp] theorem advance_obs (s : State) : (advance s).obs = s.obs := rfl
@[simp] theorem advance_absorbed (s : State) : (advance s).absorbed = s.absorbed := rfl
@[simp] theorem advance_acks (s : State) : (advance s).acks = s.acks := rfl

@[simp] theorem readTransaction_cfg (n : Nat) (s : State) : (readTransaction n s).cfg = s.cfg := rfl
@[simp] theorem readTransaction_cmd (n : Nat) (s : State) : (readTransaction n s).cmd = s.cmd := rfl
@[simp] theorem readTransaction_raw (n : Nat) (s : State) : (readTransaction n s).raw = s.raw := rfl
@[simp] theorem readTransaction_cursor (n : Nat) (s : State) : (readTransaction n s).cursor = readCursor s := rfl
@[simp] theorem readTransaction_mode (n : Nat) (s : State) : (readTransaction n s).mode = s.mode := rfl
@[simp] theorem readTransaction_hstate (n : Nat) (s : State) : (readTransaction n s).hstate = s.hstate := rfl
@[simp] theorem readTransaction_txnOpen (n : Nat) (s : State) : (readTransaction n s).txnOpen = s.txnOpen := rfl
@[simp] theorem readTransaction_hi (n : Nat) (s : State) : (readTransaction n s).hi = s.hi := rfl
@[simp] theorem readTransaction_hiValid (n : Nat) (s : State) : (readTransaction n s).hiValid = s.hiValid := rfl
@[simp] theorem readTransaction_tickPending (n : Nat) (s : State) : (readTransaction n s).tickPending = s.tickPending := rfl
@[simp] theorem readTransaction_sstate (n : Nat) (s : State) : (readTransaction n s).sstate = s.sstate := rfl
@[simp] theorem readTransaction_plan (n : Nat) (s : State) : (readTransaction n s).plan = s.plan := rfl
@[simp] theorem readTransaction_agenda (n : Nat) (s : State) : (readTransaction n s).agenda = s.agenda := rfl
@[simp] theorem readTransaction_draws (n : Nat) (s : State) : (readTransaction n s).draws = s.draws + overrunCount n s := rfl
@[simp] theorem readTransaction_obs (n : Nat) (s : State) : (readTransaction n s).obs = s.obs ++ (readAnswer n s).map .delivered := rfl
@[simp] theorem readTransaction_absorbed (n : Nat) (s : State) : (readTransaction n s).absorbed = s.absorbed := rfl
@[simp] theorem readTransaction_acks (n : Nat) (s : State) : (readTransaction n s).acks = s.acks ++ [.ack] := rfl

@[simp] theorem swapState_cfg (s : State) : (swapState s).cfg = s.cfg := rfl
@[simp] theorem swapState_cmd (s : State) : (swapState s).cmd = List.replicate s.cfg.cmdCap 0 := rfl
@[simp] theorem swapState_raw (s : State) : (swapState s).raw = List.replicate s.cfg.rawCap 0 := rfl
@[simp] theorem swapState_cursor (s : State) : (swapState s).cursor = s.cursor := rfl
@[simp] theorem swapState_mode (s : State) : (swapState s).mode = .none := rfl
@[simp] theorem swapState_hstate (s : State) : (swapState s).hstate = s.hstate := rfl
@[simp] theorem swapState_txnOpen (s : State) : (swapState s).txnOpen = s.txnOpen := rfl
@[simp] theorem swapState_hi (s : State) : (swapState s).hi = s.hi := rfl
@[simp] theorem swapState_hiValid (s : State) : (swapState s).hiValid = s.hiValid := rfl
@[simp] theorem swapState_tickPending (s : State) : (swapState s).tickPending = false := rfl
@[simp] theorem swapState_sstate (s : State) : (swapState s).sstate = sstateFor (planOf s.cfg s.mode s.cmd s.raw) := rfl
@[simp] theorem swapState_plan (s : State) : (swapState s).plan = planOf s.cfg s.mode s.cmd s.raw := rfl
@[simp] theorem swapState_agenda (s : State) : (swapState s).agenda = s.agenda := rfl
@[simp] theorem swapState_draws (s : State) : (swapState s).draws = s.draws := rfl
@[simp] theorem swapState_obs (s : State) : (swapState s).obs = s.obs := rfl
@[simp] theorem swapState_absorbed (s : State) : (swapState s).absorbed = s.absorbed ++ (planUnmapped s.cfg s.mode s.cmd).map (fun _ => .unmappedCommand) := rfl
@[simp] theorem swapState_acks (s : State) : (swapState s).acks = s.acks := rfl

@[simp] theorem performHead_cfg (a : Action) (s : State) : (performHead a s).cfg = s.cfg := rfl
@[simp] theorem performHead_cmd (a : Action) (s : State) : (performHead a s).cmd = s.cmd := rfl
@[simp] theorem performHead_raw (a : Action) (s : State) : (performHead a s).raw = s.raw := rfl
@[simp] theorem performHead_cursor (a : Action) (s : State) : (performHead a s).cursor = s.cursor := rfl
@[simp] theorem performHead_mode (a : Action) (s : State) : (performHead a s).mode = s.mode := rfl
@[simp] theorem performHead_hstate (a : Action) (s : State) : (performHead a s).hstate = s.hstate := rfl
@[simp] theorem performHead_txnOpen (a : Action) (s : State) : (performHead a s).txnOpen = s.txnOpen := rfl
@[simp] theorem performHead_hi (a : Action) (s : State) : (performHead a s).hi = s.hi := rfl
@[simp] theorem performHead_hiValid (a : Action) (s : State) : (performHead a s).hiValid = s.hiValid := rfl
@[simp] theorem performHead_tickPending (a : Action) (s : State) : (performHead a s).tickPending = s.tickPending := rfl
@[simp] theorem performHead_sstate (a : Action) (s : State) : (performHead a s).sstate = sstateFor s.plan.tail := rfl
@[simp] theorem performHead_plan (a : Action) (s : State) : (performHead a s).plan = s.plan.tail := rfl
@[simp] theorem performHead_agenda (a : Action) (s : State) : (performHead a s).agenda = s.agenda := rfl
@[simp] theorem performHead_draws (a : Action) (s : State) : (performHead a s).draws = s.draws := rfl
@[simp] theorem performHead_obs (a : Action) (s : State) : (performHead a s).obs = s.obs ++ [actionShown s.cfg a] := rfl
@[simp] theorem performHead_absorbed (a : Action) (s : State) : (performHead a s).absorbed = s.absorbed := rfl
@[simp] theorem performHead_acks (a : Action) (s : State) : (performHead a s).acks = s.acks := rfl

@[simp] theorem resetState_cfg (s : State) : (resetState s).cfg = s.cfg := rfl
@[simp] theorem resetState_cmd (s : State) : (resetState s).cmd = List.replicate s.cfg.cmdCap 0 := rfl
@[simp] theorem resetState_raw (s : State) : (resetState s).raw = List.replicate s.cfg.rawCap 0 := rfl
@[simp] theorem resetState_cursor (s : State) : (resetState s).cursor = 0 := rfl
@[simp] theorem resetState_mode (s : State) : (resetState s).mode = .none := rfl
@[simp] theorem resetState_hstate (s : State) : (resetState s).hstate = .idle := rfl
@[simp] theorem resetState_txnOpen (s : State) : (resetState s).txnOpen = false := rfl
@[simp] theorem resetState_hi (s : State) : (resetState s).hi = 0 := rfl
@[simp] theorem resetState_hiValid (s : State) : (resetState s).hiValid = false := rfl
@[simp] theorem resetState_tickPending (s : State) : (resetState s).tickPending = false := rfl
@[simp] theorem resetState_sstate (s : State) : (resetState s).sstate = .idle := rfl
@[simp] theorem resetState_plan (s : State) : (resetState s).plan = [] := rfl
@[simp] theorem resetState_agenda (s : State) : (resetState s).agenda = s.agenda := rfl
@[simp] theorem resetState_draws (s : State) : (resetState s).draws = s.draws := rfl
@[simp] theorem resetState_obs (s : State) : (resetState s).obs = s.obs := rfl
@[simp] theorem resetState_absorbed (s : State) : (resetState s).absorbed = s.absorbed := rfl
@[simp] theorem resetState_acks (s : State) : (resetState s).acks = s.acks := rfl

@[simp] theorem setBuf_cfg (s : State) (b : Buf) (l : List Slot) : (s.setBuf b l).cfg = s.cfg := by
  cases b <;> rfl
@[simp] theorem setBuf_cursor (s : State) (b : Buf) (l : List Slot) : (s.setBuf b l).cursor = s.cursor := by
  cases b <;> rfl
@[simp] theorem setBuf_mode (s : State) (b : Buf) (l : List Slot) : (s.setBuf b l).mode = s.mode := by
  cases b <;> rfl
@[simp] theorem setBuf_hstate (s : State) (b : Buf) (l : List Slot) : (s.setBuf b l).hstate = s.hstate := by
  cases b <;> rfl
@[simp] theorem setBuf_txnOpen (s : State) (b : Buf) (l : List Slot) : (s.setBuf b l).txnOpen = s.txnOpen := by
  cases b <;> rfl
@[simp] theorem setBuf_hi (s : State) (b : Buf) (l : List Slot) : (s.setBuf b l).hi = s.hi := by
  cases b <;> rfl
@[simp] theorem setBuf_hiValid (s : State) (b : Buf) (l : List Slot) : (s.setBuf b l).hiValid = s.hiValid := by
  cases b <;> rfl
@[simp] theorem setBuf_tickPending (s : State) (b : Buf) (l : List Slot) : (s.setBuf b l).tickPending = s.tickPending := by
  cases b <;> rfl
@[simp] theorem setBuf_sstate (s : State) (b : Buf) (l : List Slot) : (s.setBuf b l).sstate = s.sstate := by
  cases b <;> rfl
@[simp] theorem setBuf_plan (s : State) (b : Buf) (l : List Slot) : (s.setBuf b l).plan = s.plan := by
  cases b <;> rfl
@[simp] theorem setBuf_agenda (s : State) (b : Buf) (l : List Slot) : (s.setBuf b l).agenda = s.agenda := by
  cases b <;> rfl
@[simp] theorem setBuf_draws (s : State) (b : Buf) (l : List Slot) : (s.setBuf b l).draws = s.draws := by
  cases b <;> rfl
@[simp] theorem setBuf_obs (s : State) (b : Buf) (l : List Slot) : (s.setBuf b l).obs = s.obs := by
  cases b <;> rfl
@[simp] theorem setBuf_absorbed (s : State) (b : Buf) (l : List Slot) : (s.setBuf b l).absorbed = s.absorbed := by
  cases b <;> rfl
@[simp] theorem setBuf_acks (s : State) (b : Buf) (l : List Slot) : (s.setBuf b l).acks = s.acks := by
  cases b <;> rfl

@[simp] theorem store_cfg (b : Buf) (v : Slot) (s : State) : (store b v s).cfg = s.cfg := by
  cases b <;> rfl
@[simp] theorem store_mode (b : Buf) (v : Slot) (s : State) : (store b v s).mode = s.mode := by
  cases b <;> rfl
@[simp] theorem store_hstate (b : Buf) (v : Slot) (s : State) : (store b v s).hstate = s.hstate := by
  cases b <;> rfl
@[simp] theorem store_txnOpen (b : Buf) (v : Slot) (s : State) : (store b v s).txnOpen = s.txnOpen := by
  cases b <;> rfl
@[simp] theorem store_hi (b : Buf) (v : Slot) (s : State) : (store b v s).hi = s.hi := by
  cases b <;> rfl
@[simp] theorem store_hiValid (b : Buf) (v : Slot) (s : State) : (store b v s).hiValid = s.hiValid := by
  cases b <;> rfl
@[simp] theorem store_tickPending (b : Buf) (v : Slot) (s : State) : (store b v s).tickPending = s.tickPending := by
  cases b <;> rfl
@[simp] theorem store_sstate (b : Buf) (v : Slot) (s : State) : (store b v s).sstate = s.sstate := by
  cases b <;> rfl
@[simp] theorem store_plan (b : Buf) (v : Slot) (s : State) : (store b v s).plan = s.plan := by
  cases b <;> rfl
@[simp] theorem store_agenda (b : Buf) (v : Slot) (s : State) : (store b v s).agenda = s.agenda := by
  cases b <;> rfl
@[simp] theorem store_draws (b : Buf) (v : Slot) (s : State) : (store b v s).draws = s.draws := by
  cases b <;> rfl
@[simp] theorem store_obs (b : Buf) (v : Slot) (s : State) : (store b v s).obs = s.obs := by
  cases b <;> rfl
@[simp] theorem store_absorbed (b : Buf) (v : Slot) (s : State) : (store b v s).absorbed = s.absorbed := by
  cases b <;> rfl
@[simp] theorem store_acks (b : Buf) (v : Slot) (s : State) : (store b v s).acks = s.acks := by
  cases b <;> rfl
@[simp] theorem store_cursor (b : Buf) (v : Slot) (s : State) :
    (store b v s).cursor = (slotIndex b s + 1) % bufCap s.cfg b := rfl

@[simp] theorem storeCounted_cfg (b : Buf) (v : Slot) (s : State) : (storeCounted b v s).cfg = s.cfg := by
  unfold storeCounted; split <;> simp
@[simp] theorem storeCounted_mode (b : Buf) (v : Slot) (s : State) : (storeCounted b v s).mode = s.mode := by
  unfold storeCounted; split <;> simp
@[simp] theorem storeCounted_hstate (b : Buf) (v : Slot) (s : State) : (storeCounted b v s).hstate = s.hstate := by
  unfold storeCounted; split <;> simp
@[simp] theorem storeCounted_txnOpen (b : Buf) (v : Slot) (s : State) : (storeCounted b v s).txnOpen = s.txnOpen := by
  unfold storeCounted; split <;> simp
@[simp] theorem storeCounted_hi (b : Buf) (v : Slot) (s : State) : (storeCounted b v s).hi = s.hi := by
  unfold storeCounted; split <;> simp
@[simp] theorem storeCounted_hiValid (b : Buf) (v : Slot) (s : State) : (storeCounted b v s).hiValid = s.hiValid := by
  unfold storeCounted; split <;> simp
@[simp] theorem storeCounted_tickPending (b : Buf) (v : Slot) (s : State) : (storeCounted b v s).tickPending = s.tickPending := by
  unfold storeCounted; split <;> simp
@[simp] theorem storeCounted_sstate (b : Buf) (v : Slot) (s : State) : (storeCounted b v s).sstate = s.sstate := by
  unfold storeCounted; split <;> simp
@[simp] theorem storeCounted_plan (b : Buf) (v : Slot) (s : State) : (storeCounted b v s).plan = s.plan := by
  unfold storeCounted; split <;> simp
@[simp] theorem storeCounted_agenda (b : Buf) (v : Slot) (s : State) : (storeCounted b v s).agenda = s.agenda := by
  unfold storeCounted; split <;> simp
@[simp] theorem storeCounted_draws (b : Buf) (v : Slot) (s : State) : (storeCounted b v s).draws = s.draws := by
  unfold storeCounted; split <;> simp
@[simp] theorem storeCounted_obs (b : Buf) (v : Slot) (s : State) : (storeCounted b v s).obs = s.obs := by
  unfold storeCounted; split <;> simp
@[simp] theorem storeCounted_acks (b : Buf) (v : Slot) (s : State) : (storeCounted b v s).acks = s.acks := by
  unfold storeCounted; split <;> simp
@[simp] theorem storeCounted_absorbed (b : Buf) (v : Slot) (s : State) :
    (storeCounted b v s).absorbed = s.absorbed ++ if storeWraps b s then [.bufferOverrun] else [] := by
  unfold storeCounted; split <;> simp_all

@[simp] theorem buf_cmd (s : State) : s.buf .cmd = s.cmd := rfl
@[simp] theorem buf_raw (s : State) : s.buf .raw = s.raw := rfl
@[simp] theorem setBuf_cmd_cmd (s : State) (l : List Slot) : (s.setBuf .cmd l).cmd = l := rfl
@[simp] theorem setBuf_cmd_raw (s : State) (l : List Slot) : (s.setBuf .cmd l).raw = s.raw := rfl
@[simp] theorem setBuf_raw_cmd (s : State) (l : List Slot) : (s.setBuf .raw l).cmd = s.cmd := rfl
@[simp] theorem setBuf_raw_raw (s : State) (l : List Slot) : (s.setBuf .raw l).raw = l := rfl
@[simp] theorem store_cmd_raw (v : Slot) (s : State) : (store .cmd v s).raw = s.raw := rfl
@[simp] theorem store_raw_cmd (v : Slot) (s : State) : (store .raw v s).cmd = s.cmd := rfl
@[simp] theorem store_cmd_cmd (v : Slot) (s : State) :
    (store .cmd v s).cmd = storeSlots s.cfg.cmdCap (slotIndex .cmd s) v s.cmd := rfl
@[simp] theorem store_raw_raw (v : Slot) (s : State) :
    (store .raw v s).raw = storeSlots s.cfg.rawCap (slotIndex .raw s) v s.raw := rfl
@[simp] theorem slotIndex_absorb (b : Buf) (c : ErrorClass) (s : State) : slotIndex b (absorb c s) = slotIndex b s := rfl
@[simp] theorem slotIndex_acknowledge (b : Buf) (s : State) : slotIndex b (acknowledge s) = slotIndex b s := rfl

theorem storeCounted_cursor (b : Buf) (v : Slot) (s : State) :
    (storeCounted b v s).cursor = (slotIndex b s + 1) % bufCap s.cfg b := by
  unfold storeCounted; split <;> simp

theorem storeCounted_cmd (b : Buf) (v : Slot) (s : State) : (storeCounted b v s).cmd = (store b v s).cmd := by
  unfold storeCounted; split <;> cases b <;> rfl

theorem storeCounted_raw (b : Buf) (v : Slot) (s : State) : (storeCounted b v s).raw = (store b v s).raw := by
  unfold storeCounted; split <;> cases b <;> rfl

end Sys2Proof.Machine
end

