-- ==== Sys2Proof/Laws/Ops.lean ====
section
/-! SUPPORT. What the shared operations can do: the slots after a store, what the handler's steps leave alone, and that
every operation keeps the form of the buffers. -/

namespace Sys2Proof.Machine

/-! ## Bytes and slots -/

/-- A slot is the pair of its high and its low byte. -/
theorem bigEndian_highByte_lowByte (v : Slot) : bigEndian (highByte v) (lowByte v) = v := by
  have h : (v.extractLsb' 8 8 ++ v.extractLsb' 0 8) = v.extractLsb' 0 (8 + 8) :=
    BitVec.extractLsb'_append_extractLsb'_eq_extractLsb' (by rfl)
  exact h.trans BitVec.extractLsb'_eq_self

theorem highByte_zext16 (b : Byte) : highByte (zext16 b) = 0 := by
  show (b.setWidth 16).extractLsb' 8 8 = 0
  ext i hi
  simp

theorem lowByte_zext16 (b : Byte) : lowByte (zext16 b) = b := by
  show (b.setWidth 16).extractLsb' 0 8 = b
  simp [← BitVec.setWidth_eq_extractLsb']

/-! ## Store and load -/

@[simp] theorem storeSlots_length (cap i : Nat) (v : Slot) (l : List Slot) :
    (storeSlots cap i v l).length = l.length := by
  unfold storeSlots; split <;> simp

/-- The slots after a store: slot 0 pre-cleared at the wrap boundary, slot `i` written, the others as they were. -/
theorem storeSlots_getElem? (cap i j : Nat) (v : Slot) (l : List Slot) (hi : i < l.length) :
    (storeSlots cap i v l)[j]? =
      if j = 0 ∧ i = cap - 1 then some 0 else if j = i then some v else l[j]? := by
  have hl : 0 < l.length := Nat.lt_of_le_of_lt (Nat.zero_le _) hi
  have hset : (l.set i v)[j]? = if j = i then some v else l[j]? := by
    rw [List.getElem?_set]
    by_cases hj : i = j
    · rw [if_pos hj, if_pos hj.symm, if_pos hi]
    · rw [if_neg hj, if_neg (Ne.symm hj)]
  by_cases hc : i = cap - 1
  · rw [storeSlots, if_pos hc, List.getElem?_set, List.length_set, hset]
    by_cases h0 : 0 = j
    · rw [if_pos h0, if_pos hl, if_pos ⟨h0.symm, hc⟩]
    · have hn : ¬ (j = 0 ∧ i = cap - 1) := fun h => h0 h.1.symm
      rw [if_neg h0, if_neg hn]
  · have hn : ¬ (j = 0 ∧ i = cap - 1) := fun h => hc h.2
    rw [storeSlots, if_neg hc, hset, if_neg hn]

theorem storeSlots_mem (cap i : Nat) (v x : Slot) (l : List Slot) (hx : x ∈ storeSlots cap i v l) :
    x = 0 ∨ x = v ∨ x ∈ l := by
  unfold storeSlots at hx
  split at hx
  · rcases List.mem_or_eq_of_mem_set hx with h | h
    · rcases List.mem_or_eq_of_mem_set h with h | h <;> simp_all
    · exact .inl h
  · rcases List.mem_or_eq_of_mem_set hx with h | h <;> simp_all

/-- A load within the capacity reads its slot. -/
theorem load_of_lt (b : Buf) (i : Nat) (s : State) (h : i < bufCap s.cfg b) : load b i s = (s.buf b).getD i 0 := by
  unfold load; rw [Nat.mod_eq_of_lt h]

/-- The store's own buffer. -/
@[simp] theorem store_buf_self (b : Buf) (v : Slot) (s : State) :
    (store b v s).buf b = storeSlots (bufCap s.cfg b) (slotIndex b s) v (s.buf b) := by
  cases b <;> rfl

/-- The other buffer is untouched. -/
theorem store_buf_other (b c : Buf) (v : Slot) (s : State) (h : c ≠ b) : (store b v s).buf c = s.buf c := by
  cases b <;> cases c <;> first | exact absurd rfl h | rfl

@[simp] theorem storeCounted_buf (b c : Buf) (v : Slot) (s : State) :
    (storeCounted b v s).buf c = (store b v s).buf c := by
  cases c
  · exact storeCounted_cmd b v s
  · exact storeCounted_raw b v s

/-- A store keeps the form of the buffers. -/
theorem memory_wf_store (b : Buf) (v : Slot) (s : State) (h : Memory.wf s) : Memory.wf (store b v s) := by
  cases b <;> simpa [Memory.wf] using h

theorem memory_wf_storeCounted (b : Buf) (v : Slot) (s : State) (h : Memory.wf s) :
    Memory.wf (storeCounted b v s) := by
  have := memory_wf_store b v s h
  simpa [Memory.wf, storeCounted_cmd, storeCounted_raw] using this

/-! ## What the handler's steps leave alone -/

@[simp] theorem payloadByte_cfg (b : Byte) (s : State) : (payloadByte b s).cfg = s.cfg := by
  unfold payloadByte projByte rawByte; split <;> (try split) <;> simp
@[simp] theorem wbyte_cfg (b : Byte) (s : State) : (wbyte b s).cfg = s.cfg := by
  unfold wbyte; split <;> simp
@[simp] theorem wbytes_cfg (bytes : List Byte) (s : State) : (wbytes bytes s).cfg = s.cfg := by
  induction bytes generalizing s with
  | nil => rfl
  | cons b rest ih => exact (ih (wbyte b s)).trans (wbyte_cfg b s)
@[simp] theorem oddByte_cfg (s : State) : (oddByte s).cfg = s.cfg := by
  unfold oddByte; split <;> simp
@[simp] theorem wstop_cfg (s : State) : (wstop s).cfg = s.cfg := by
  unfold wstop wstopEffect; split <;> (try split) <;> simp
@[simp] theorem writeTransaction_cfg (bytes : List Byte) (s : State) : (writeTransaction bytes s).cfg = s.cfg := by
  simp [writeTransaction]

@[simp] theorem payloadByte_tickPending (b : Byte) (s : State) : (payloadByte b s).tickPending = s.tickPending := by
  unfold payloadByte projByte rawByte; split <;> (try split) <;> simp
@[simp] theorem wbyte_tickPending (b : Byte) (s : State) : (wbyte b s).tickPending = s.tickPending := by
  unfold wbyte; split <;> simp
@[simp] theorem wbytes_tickPending (bytes : List Byte) (s : State) : (wbytes bytes s).tickPending = s.tickPending := by
  induction bytes generalizing s with
  | nil => rfl
  | cons b rest ih => exact (ih (wbyte b s)).trans (wbyte_tickPending b s)
@[simp] theorem oddByte_tickPending (s : State) : (oddByte s).tickPending = s.tickPending := by
  unfold oddByte; split <;> simp
@[simp] theorem wstop_tickPending (s : State) : (wstop s).tickPending = s.tickPending := by
  unfold wstop wstopEffect; split <;> (try split) <;> simp
@[simp] theorem writeTransaction_tickPending (bytes : List Byte) (s : State) : (writeTransaction bytes s).tickPending = s.tickPending := by
  simp [writeTransaction]

@[simp] theorem payloadByte_sstate (b : Byte) (s : State) : (payloadByte b s).sstate = s.sstate := by
  unfold payloadByte projByte rawByte; split <;> (try split) <;> simp
@[simp] theorem wbyte_sstate (b : Byte) (s : State) : (wbyte b s).sstate = s.sstate := by
  unfold wbyte; split <;> simp
@[simp] theorem wbytes_sstate (bytes : List Byte) (s : State) : (wbytes bytes s).sstate = s.sstate := by
  induction bytes generalizing s with
  | nil => rfl
  | cons b rest ih => exact (ih (wbyte b s)).trans (wbyte_sstate b s)
@[simp] theorem oddByte_sstate (s : State) : (oddByte s).sstate = s.sstate := by
  unfold oddByte; split <;> simp
@[simp] theorem wstop_sstate (s : State) : (wstop s).sstate = s.sstate := by
  unfold wstop wstopEffect; split <;> (try split) <;> simp
@[simp] theorem writeTransaction_sstate (bytes : List Byte) (s : State) : (writeTransaction bytes s).sstate = s.sstate := by
  simp [writeTransaction]

@[simp] theorem payloadByte_plan (b : Byte) (s : State) : (payloadByte b s).plan = s.plan := by
  unfold payloadByte projByte rawByte; split <;> (try split) <;> simp
@[simp] theorem wbyte_plan (b : Byte) (s : State) : (wbyte b s).plan = s.plan := by
  unfold wbyte; split <;> simp
@[simp] theorem wbytes_plan (bytes : List Byte) (s : State) : (wbytes bytes s).plan = s.plan := by
  induction bytes generalizing s with
  | nil => rfl
  | cons b rest ih => exact (ih (wbyte b s)).trans (wbyte_plan b s)
@[simp] theorem oddByte_plan (s : State) : (oddByte s).plan = s.plan := by
  unfold oddByte; split <;> simp
@[simp] theorem wstop_plan (s : State) : (wstop s).plan = s.plan := by
  unfold wstop wstopEffect; split <;> (try split) <;> simp
@[simp] theorem writeTransaction_plan (bytes : List Byte) (s : State) : (writeTransaction bytes s).plan = s.plan := by
  simp [writeTransaction]

@[simp] theorem payloadByte_agenda (b : Byte) (s : State) : (payloadByte b s).agenda = s.agenda := by
  unfold payloadByte projByte rawByte; split <;> (try split) <;> simp
@[simp] theorem wbyte_agenda (b : Byte) (s : State) : (wbyte b s).agenda = s.agenda := by
  unfold wbyte; split <;> simp
@[simp] theorem wbytes_agenda (bytes : List Byte) (s : State) : (wbytes bytes s).agenda = s.agenda := by
  induction bytes generalizing s with
  | nil => rfl
  | cons b rest ih => exact (ih (wbyte b s)).trans (wbyte_agenda b s)
@[simp] theorem oddByte_agenda (s : State) : (oddByte s).agenda = s.agenda := by
  unfold oddByte; split <;> simp
@[simp] theorem wstop_agenda (s : State) : (wstop s).agenda = s.agenda := by
  unfold wstop wstopEffect; split <;> (try split) <;> simp
@[simp] theorem writeTransaction_agenda (bytes : List Byte) (s : State) : (writeTransaction bytes s).agenda = s.agenda := by
  simp [writeTransaction]

@[simp] theorem payloadByte_draws (b : Byte) (s : State) : (payloadByte b s).draws = s.draws := by
  unfold payloadByte projByte rawByte; split <;> (try split) <;> simp
@[simp] theorem wbyte_draws (b : Byte) (s : State) : (wbyte b s).draws = s.draws := by
  unfold wbyte; split <;> simp
@[simp] theorem wbytes_draws (bytes : List Byte) (s : State) : (wbytes bytes s).draws = s.draws := by
  induction bytes generalizing s with
  | nil => rfl
  | cons b rest ih => exact (ih (wbyte b s)).trans (wbyte_draws b s)
@[simp] theorem oddByte_draws (s : State) : (oddByte s).draws = s.draws := by
  unfold oddByte; split <;> simp
@[simp] theorem wstop_draws (s : State) : (wstop s).draws = s.draws := by
  unfold wstop wstopEffect; split <;> (try split) <;> simp
@[simp] theorem writeTransaction_draws (bytes : List Byte) (s : State) : (writeTransaction bytes s).draws = s.draws := by
  simp [writeTransaction]

@[simp] theorem payloadByte_obs (b : Byte) (s : State) : (payloadByte b s).obs = s.obs := by
  unfold payloadByte projByte rawByte; split <;> (try split) <;> simp
@[simp] theorem wbyte_obs (b : Byte) (s : State) : (wbyte b s).obs = s.obs := by
  unfold wbyte; split <;> simp
@[simp] theorem wbytes_obs (bytes : List Byte) (s : State) : (wbytes bytes s).obs = s.obs := by
  induction bytes generalizing s with
  | nil => rfl
  | cons b rest ih => exact (ih (wbyte b s)).trans (wbyte_obs b s)
@[simp] theorem oddByte_obs (s : State) : (oddByte s).obs = s.obs := by
  unfold oddByte; split <;> simp
@[simp] theorem wstop_obs (s : State) : (wstop s).obs = s.obs := by
  unfold wstop wstopEffect; split <;> (try split) <;> simp
@[simp] theorem writeTransaction_obs (bytes : List Byte) (s : State) : (writeTransaction bytes s).obs = s.obs := by
  simp [writeTransaction]

@[simp] theorem payloadByte_txnOpen (b : Byte) (s : State) : (payloadByte b s).txnOpen = s.txnOpen := by
  unfold payloadByte projByte rawByte; split <;> (try split) <;> simp
@[simp] theorem wbyte_txnOpen (b : Byte) (s : State) : (wbyte b s).txnOpen = s.txnOpen := by
  unfold wbyte; split <;> simp
@[simp] theorem wbytes_txnOpen (bytes : List Byte) (s : State) : (wbytes bytes s).txnOpen = s.txnOpen := by
  induction bytes generalizing s with
  | nil => rfl
  | cons b rest ih => exact (ih (wbyte b s)).trans (wbyte_txnOpen b s)
@[simp] theorem wstop_txnOpen (s : State) : (wstop s).txnOpen = false := rfl
@[simp] theorem wstop_hiValid (s : State) : (wstop s).hiValid = false := rfl
@[simp] theorem wstop_hstate (s : State) : (wstop s).hstate = .idle := rfl
@[simp] theorem writeTransaction_txnOpen (bytes : List Byte) (s : State) :
    (writeTransaction bytes s).txnOpen = false := rfl
@[simp] theorem writeTransaction_hiValid (bytes : List Byte) (s : State) :
    (writeTransaction bytes s).hiValid = false := rfl
@[simp] theorem writeTransaction_hstate (bytes : List Byte) (s : State) :
    (writeTransaction bytes s).hstate = .idle := rfl

/-! ## What one byte can do -/

/-- Everything `WBYTE` can do (R79 to R82). -/
theorem wbyte_cases (b : Byte) (s : State) :
    (s.hstate = .idle ∧ wbyte b s = modeByte b (acknowledge s)) ∨
    (s.hstate = .awaitingPayload ∧ s.mode = .proj ∧
      wbyte b s = storeCounted .cmd (zext16 b) (acknowledge s)) ∨
    (s.hstate = .awaitingPayload ∧ s.mode = .raw ∧ s.hiValid = false ∧
      wbyte b s = { acknowledge s with hi := b, hiValid := true }) ∨
    (s.hstate = .awaitingPayload ∧ s.mode = .raw ∧ s.hiValid = true ∧
      wbyte b s = { storeCounted .raw (bigEndian s.hi b) (acknowledge s) with hiValid := false }) ∨
    (s.hstate = .awaitingPayload ∧ s.mode = .none ∧ wbyte b s = absorb .unrecognizedMode (acknowledge s)) := by
  cases hh : s.hstate
  · exact .inl ⟨rfl, by simp [wbyte, hh]⟩
  · cases hm : s.mode
    · exact .inr (.inr (.inr (.inr ⟨rfl, rfl, by simp [wbyte, hh, payloadByte, hm]⟩)))
    · exact .inr (.inl ⟨rfl, rfl, by simp [wbyte, hh, payloadByte, hm, projByte]⟩)
    · cases hv : s.hiValid
      · exact .inr (.inr (.inl ⟨rfl, rfl, rfl, by simp [wbyte, hh, payloadByte, hm, rawByte, hv]⟩))
      · exact .inr (.inr (.inr (.inl ⟨rfl, rfl, rfl, by simp [wbyte, hh, payloadByte, hm, rawByte, hv]⟩)))

/-- Everything `WSTOP` can do before it closes the transaction (R83 to R86). -/
theorem wstopEffect_cases (s : State) :
    (s.hstate = .idle ∧ wstopEffect s = absorb .zeroLength s) ∨
    (s.hstate = .awaitingPayload ∧ ¬ (s.mode = .raw ∧ s.hiValid = true) ∧ wstopEffect s = s) ∨
    (s.hstate = .awaitingPayload ∧ (s.mode = .raw ∧ s.hiValid = true) ∧ s.cfg.oddPolicy = .drop ∧
      wstopEffect s = absorb .oddLength s) ∨
    (s.hstate = .awaitingPayload ∧ (s.mode = .raw ∧ s.hiValid = true) ∧ s.cfg.oddPolicy = .pad ∧
      wstopEffect s = storeCounted .raw (bigEndian s.hi 0x00) (absorb .oddLength s)) ∨
    (s.hstate = .awaitingPayload ∧ (s.mode = .raw ∧ s.hiValid = true) ∧ s.cfg.oddPolicy = .reject ∧
      wstopEffect s = { absorb .oddLength s with mode := .none }) := by
  cases hh : s.hstate
  · exact .inl ⟨rfl, by simp [wstopEffect, hh]⟩
  · by_cases hc : s.mode = .raw ∧ s.hiValid = true
    · cases hp : s.cfg.oddPolicy <;> simp [wstopEffect, hh, hc, oddByte, hp]
    · exact .inr (.inl ⟨rfl, hc, by simp [wstopEffect, hh, hc]⟩)

/-! ## The form of the buffers is kept -/

theorem memory_wf_wbyte (b : Byte) (s : State) (h : Memory.wf s) : Memory.wf (wbyte b s) := by
  have ha : Memory.wf (acknowledge s) := h
  rcases wbyte_cases b s with ⟨-, e⟩ | ⟨-, -, e⟩ | ⟨-, -, -, e⟩ | ⟨-, -, -, e⟩ | ⟨-, -, e⟩ <;> rw [e]
  · exact h
  · exact memory_wf_storeCounted _ _ _ ha
  · exact h
  · exact memory_wf_storeCounted .raw (bigEndian s.hi b) _ ha
  · exact h

theorem memory_wf_wbytes (bytes : List Byte) (s : State) (h : Memory.wf s) : Memory.wf (wbytes bytes s) := by
  induction bytes generalizing s with
  | nil => exact h
  | cons b rest ih => exact ih _ (memory_wf_wbyte b s h)

theorem memory_wf_wstop (s : State) (h : Memory.wf s) : Memory.wf (wstop s) := by
  show Memory.wf (wstopEffect s)
  rcases wstopEffect_cases s with ⟨-, e⟩ | ⟨-, -, e⟩ | ⟨-, -, -, e⟩ | ⟨-, -, -, e⟩ | ⟨-, -, -, e⟩ <;> rw [e]
  · exact h
  · exact h
  · exact h
  · exact memory_wf_storeCounted _ _ _ h
  · exact h

theorem memory_wf_writeTransaction (bytes : List Byte) (s : State) (h : Memory.wf s) :
    Memory.wf (writeTransaction bytes s) :=
  memory_wf_wstop _ (memory_wf_wbytes bytes _ h)

theorem memory_wf_readTransaction (n : Nat) (s : State) (h : Memory.wf s) : Memory.wf (readTransaction n s) := h

theorem memory_wf_raiseTick (s : State) (h : Memory.wf s) : Memory.wf (raiseTick s) := h

theorem memory_wf_swapState (s : State) : Memory.wf (swapState s) := by simp [Memory.wf]

theorem memory_wf_performHead (a : Action) (s : State) (h : Memory.wf s) : Memory.wf (performHead a s) := h

theorem memory_wf_resetState (s : State) : Memory.wf (resetState s) := by simp [Memory.wf]

theorem memory_wf_reset : Memory.wf State.reset := by
  constructor <;> rfl

/-! ## The handler does not look at the scheduler's side of the state -/

/-- The state with the tick, the scheduler, the events to come, the draws and the observation of another. -/
def State.withSchedule (s o : State) : State :=
  { s with
    tickPending := o.tickPending, sstate := o.sstate, plan := o.plan, agenda := o.agenda, draws := o.draws,
    obs := o.obs }

theorem storeCounted_withSchedule (b : Buf) (v : Slot) (s o : State) :
    storeCounted b v (s.withSchedule o) = (storeCounted b v s).withSchedule o := by
  have h : storeWraps b (s.withSchedule o) = storeWraps b s := rfl
  unfold storeCounted
  rw [h]
  split <;> cases b <;> rfl

theorem payloadByte_withSchedule (b : Byte) (s o : State) :
    payloadByte b (s.withSchedule o) = (payloadByte b s).withSchedule o := by
  have hm : (s.withSchedule o).mode = s.mode := rfl
  have hv : (s.withSchedule o).hiValid = s.hiValid := rfl
  have hh : (s.withSchedule o).hi = s.hi := rfl
  unfold payloadByte projByte rawByte
  rw [hm]
  cases s.mode
  · rfl
  · exact storeCounted_withSchedule _ _ _ _
  · show (if _ then _ else _) = State.withSchedule (if _ then _ else _) o
    rw [hv]
    cases s.hiValid
    · rfl
    · rw [if_pos rfl, if_pos rfl, hh, storeCounted_withSchedule]; rfl

theorem wbyte_withSchedule (b : Byte) (s o : State) : wbyte b (s.withSchedule o) = (wbyte b s).withSchedule o := by
  have hs : (s.withSchedule o).hstate = s.hstate := rfl
  have ha : acknowledge (s.withSchedule o) = (acknowledge s).withSchedule o := rfl
  unfold wbyte
  rw [hs, ha]
  cases s.hstate
  · rfl
  · exact payloadByte_withSchedule _ _ _

theorem wbytes_withSchedule (bytes : List Byte) (s o : State) :
    wbytes bytes (s.withSchedule o) = (wbytes bytes s).withSchedule o := by
  induction bytes generalizing s with
  | nil => rfl
  | cons b rest ih =>
    show wbytes rest (wbyte b _) = (wbytes rest (wbyte b s)).withSchedule o
    rw [wbyte_withSchedule, ih]

theorem oddByte_withSchedule (s o : State) : oddByte (s.withSchedule o) = (oddByte s).withSchedule o := by
  have hc : (s.withSchedule o).cfg = s.cfg := rfl
  have hh : (s.withSchedule o).hi = s.hi := rfl
  unfold oddByte
  rw [hc, hh]
  cases s.cfg.oddPolicy
  · rfl
  · exact storeCounted_withSchedule .raw (bigEndian s.hi 0x00) (absorb .oddLength s) o
  · rfl

theorem wstop_withSchedule (s o : State) : wstop (s.withSchedule o) = (wstop s).withSchedule o := by
  have hs : (s.withSchedule o).hstate = s.hstate := rfl
  have hm : (s.withSchedule o).mode = s.mode := rfl
  have hv : (s.withSchedule o).hiValid = s.hiValid := rfl
  unfold wstop wstopEffect
  rw [hs, hm, hv, oddByte_withSchedule]
  cases s.hstate
  · rfl
  · show closeTxn (if _ then _ else _) = State.withSchedule (closeTxn (if _ then _ else _)) o
    split <;> rfl

/-- A write transaction reads and writes nothing of the scheduler's side (R54, R55). -/
theorem writeTransaction_withSchedule (bytes : List Byte) (s o : State) :
    writeTransaction bytes (s.withSchedule o) = (writeTransaction bytes s).withSchedule o := by
  unfold writeTransaction
  rw [show wstart (s.withSchedule o) = (wstart s).withSchedule o from rfl, wbytes_withSchedule, wstop_withSchedule]

/-! ## Reads -/

@[simp] theorem response_length (s : State) :
    (response s).length = modeCap s.cfg s.mode - slotIndex (activeBuf s.mode) s := by
  simp [response]

/-- A read delivers one byte per byte clocked out. -/
@[simp] theorem readAnswer_length (n : Nat) (s : State) : (readAnswer n s).length = n := by
  simp [readAnswer, overrunCount]; omega

end Sys2Proof.Machine
end

