-- ==== Sys2Proof/Laws/Exec.lean ====
section
/-! SUPPORT. What an operation and a step can do: one inversion lemma each, which later proofs cite instead of unfolding
the meanings. -/

namespace Sys2Proof.Machine

theorem busWrite_of_closed (bytes : List Byte) (s : State) (h : s.txnOpen = false) :
    busWrite bytes s = .next (writeTransaction bytes s) := by simp [busWrite, h]

theorem busWrite_next (bytes : List Byte) (s t : State) (h : busWrite bytes s = .next t) :
    s.txnOpen = false ∧ t = writeTransaction bytes s := by
  unfold busWrite at h
  split at h
  · cases h
  · cases h; exact ⟨by simp_all, rfl⟩

theorem execRead_next (n : Nat) (s t : State) (h : execRead n s = .next t) :
    s.txnOpen = false ∧ t = readTransaction n s := by
  unfold execRead at h
  split at h
  · cases h
  · cases h; exact ⟨by simp_all, rfl⟩

theorem execSwap_next (s t : State) (h : execSwap s = .next t) : swapEnabled s = true ∧ t = swapState s := by
  unfold execSwap at h
  split at h
  · cases h; exact ⟨‹_›, rfl⟩
  · cases h

theorem drainStep_next (a : Action) (s t : State) (h : drainStep a s = .next t) :
    drainEnabled a s = true ∧ t = performHead a s := by
  unfold drainStep at h
  split at h
  · cases h; exact ⟨‹_›, rfl⟩
  · cases h

theorem drainEnabled_iff (a : Action) (s : State) :
    drainEnabled a s = true ↔ s.sstate = .drain ∧ ∃ more, s.plan = a :: more := by
  unfold drainEnabled
  cases s.plan <;> simp

theorem swapEnabled_iff (s : State) :
    swapEnabled s = true ↔ s.tickPending = true ∧ s.txnOpen = false ∧ s.sstate = .idle := by
  simp [swapEnabled, and_assoc]

/-- The four writes are the transaction of the bytes their frame has. -/
theorem exec_decodeWrite (bytes : List Byte) (s : State) : exec (decode (.write bytes)) s = busWrite bytes s := by
  cases bytes with
  | nil => rfl
  | cons b payload =>
    simp only [decode, decodeWrite, decodeMode]
    by_cases hp : b = selectorProj
    · simp [hp, exec, execWriteProj]
    · by_cases hr : b = selectorRaw
      · simp [hr, exec, execWriteRaw, selectorProj, selectorRaw]
      · simp [hp, hr, exec, execWriteOther]

theorem exec_decodeAction (a : Action) (s : State) : exec (decodeAction a) s = drainStep a s := by
  cases a <;> rfl

/-- Everything an operation can do that completes. -/
theorem exec_cases (i : Instr) (s t : State) (h : exec i s = .next t) :
    (∃ bytes, encode i = .write bytes ∧ s.txnOpen = false ∧ t = writeTransaction bytes s) ∨
    (∃ n, i = .read n ∧ s.txnOpen = false ∧ t = readTransaction n s) ∨
    (i = .tick ∧ t = raiseTick s) ∨
    (i = .swap ∧ swapEnabled s = true ∧ t = swapState s) ∨
    (∃ a, i = decodeAction a ∧ drainEnabled a s = true ∧ t = performHead a s) := by
  cases i with
  | writeEmpty => exact .inl ⟨_, rfl, busWrite_next _ _ _ h⟩
  | writeProj p => exact .inl ⟨_, rfl, busWrite_next _ _ _ h⟩
  | writeRaw p => exact .inl ⟨_, rfl, busWrite_next _ _ _ h⟩
  | writeOther b p => exact .inl ⟨_, rfl, busWrite_next _ _ _ h⟩
  | read n => exact .inr (.inl ⟨n, rfl, execRead_next _ _ _ h⟩)
  | tick => cases h; exact .inr (.inr (.inl ⟨rfl, rfl⟩))
  | swap => exact .inr (.inr (.inr (.inl ⟨rfl, execSwap_next _ _ h⟩)))
  | drainEmit1 w => exact .inr (.inr (.inr (.inr ⟨.emitCH1 w, rfl, drainStep_next _ _ _ h⟩)))
  | drainWait d => exact .inr (.inr (.inr (.inr ⟨.wait d, rfl, drainStep_next _ _ _ h⟩)))
  | drainEmit2 c f => exact .inr (.inr (.inr (.inr ⟨.emitCH2 c f, rfl, drainStep_next _ _ _ h⟩)))

theorem step_of_fetch (s : State) (f : Frame) (h : fetchFrame s = some f) : step s = exec (decode f) (advance s) := by
  simp [step, fetchInstr, h]

theorem step_of_none (s : State) (h : fetchFrame s = none) : step s = portStep s := by
  simp [step, fetchInstr, h]

/-- A step that completes is an operation that completes, or a port event. -/
theorem step_cases (s t : State) (h : step s = .next t) :
    (∃ f, fetchFrame s = some f ∧ exec (decode f) (advance s) = .next t) ∨
    (fetchFrame s = none ∧ portStep s = .next t) := by
  cases hf : fetchFrame s with
  | none => exact .inr ⟨rfl, by rw [step_of_none s hf] at h; exact h⟩
  | some f => exact .inl ⟨f, rfl, by rw [step_of_fetch s f hf] at h; exact h⟩

/-- Everything a port event can do that completes. -/
theorem portStep_cases (s t : State) (h : portStep s = .next t) :
    (∃ rest, s.agenda = .wstart :: rest ∧ s.txnOpen = false ∧ t = wstart (advance s)) ∨
    (∃ b rest, s.agenda = .wbyte b :: rest ∧ s.txnOpen = true ∧ t = wbyte b (advance s)) ∨
    (∃ rest, s.agenda = .wstop :: rest ∧ s.txnOpen = true ∧ t = wstop (advance s)) ∨
    (∃ rest, s.agenda = .reset :: rest ∧ t = resetState (advance s)) ∨
    t = advance s := by
  unfold portStep at h
  split at h <;> (try split at h) <;> cases h <;> simp_all

/-- Running any machine of the host's form: the first step, then the rest. -/
theorem run_succ_of_next (M : Host.Core) (k : Nat) (s t : M.State) (h : M.step s = .next t) :
    M.run (k + 1) s = M.run k t := by
  rw [Host.Core.run, h]

theorem run_succ_of_refused (M : Host.Core) (k : Nat) (s : M.State) (r : M.Refusal) (h : M.step s = .refused r) :
    M.run (k + 1) s = .refused r := by
  rw [Host.Core.run, h]

/-- Running: the first step, then the rest. -/
theorem run_succ (k : Nat) (s t : State) (h : step s = .next t) : core.run (k + 1) s = core.run k t :=
  run_succ_of_next core k s t h

theorem run_refused (k : Nat) (s : State) (r : Refusal) (h : step s = .refused r) :
    core.run (k + 1) s = .refused r :=
  run_succ_of_refused core k s r h

theorem run_zero (s : State) : core.run 0 s = .next s := rfl

/-- Two runs one after the other. -/
theorem run_add (j k : Nat) (s t : State) (h : core.run j s = .next t) : core.run (j + k) s = core.run k t := by
  induction j generalizing s with
  | zero => cases h; simp
  | succ j ih =>
    cases hs : step s with
    | next u =>
      rw [Nat.add_right_comm, run_succ _ _ _ hs]
      rw [run_succ _ _ _ hs] at h
      exact ih u h
    | fault r => exact r.rec
    | refused r =>
      rw [run_refused _ _ _ hs] at h; cases h

end Sys2Proof.Machine
end

