-- ==== Sys2Proof/Laws/PerInstr.lean ====
section
/-! SUPPORT. Statements made once per constructor of `Instr`, named in LAWS.json. -/

/-- The family `TableRow`: the frame of a well-formed operation is taken by that operation's own row of the opcode
table, the rows in their order of priority (R69). -/
def Sys2Proof.Laws.TableRow.Statement (i : Sys2Proof.Instr) : Prop :=
  ∀ cfg : Sys2Proof.Config,
    Sys2Proof.Instr.wellFormed cfg i = true → Sys2Proof.tableRow (Sys2Proof.encode i) = some i.mnemonic

namespace Sys2Proof.Laws

theorem TableRow.writeEmpty : TableRow.Statement .writeEmpty := fun _ _ => rfl

theorem TableRow.writeProj (payload : List Byte) : TableRow.Statement (.writeProj payload) := fun _ _ => rfl

theorem TableRow.writeRaw (payload : List Byte) : TableRow.Statement (.writeRaw payload) := fun _ _ => rfl

theorem TableRow.writeOther (selector : Byte) (payload : List Byte) :
    TableRow.Statement (.writeOther selector payload) := by
  intro _ h
  have hs : selector ≠ 0x70 ∧ selector ≠ 0x72 := by simpa [Instr.wellFormed, isOtherSelector] using h
  have hm : selector &&& 0xFF = selector := BitVec.and_allOnes
  have h0 : selector &&& 0x00 = 0x00 := BitVec.and_zero
  have hp : (selector == 0x70) = false := by simpa using hs.1
  have hr : (selector == 0x72) = false := by simpa using hs.2
  simp only [tableRow, encode, opcodeTable, List.find?_cons, Selector.takes, hm, hp, hr, h0]
  rfl

theorem TableRow.read (n : Nat) : TableRow.Statement (.read n) := fun _ _ => rfl

theorem TableRow.tick : TableRow.Statement .tick := fun _ _ => rfl

theorem TableRow.swap : TableRow.Statement .swap := fun _ _ => rfl

theorem TableRow.drainEmit1 (w : WaveformId) : TableRow.Statement (.drainEmit1 w) := fun _ _ => rfl

theorem TableRow.drainWait (d : Duration) : TableRow.Statement (.drainWait d) := fun _ _ => rfl

theorem TableRow.drainEmit2 (codes : List Slot) (f : Frequency) : TableRow.Statement (.drainEmit2 codes f) :=
  fun _ _ => rfl

end Sys2Proof.Laws
end

