-- ==== Sys2Proof/Tests/Slice0.lean ====
section
/-! SUPPORT. The model's own tests. Expected results come from the spec: the encodings of its section 30 and the test
vectors of its section 95 (named in each docstring). Beside them, a witness for the hypotheses of every obligation. -/

open Sys2Proof Sys2Proof.Machine Sys2Proof.Spec

namespace Sys2Proof.Tests

/-- A lookup table beside `'P'`: c1 = 0x31, c2 = 0x32, c3 = 0x33; u = 0x7A has no entry (section 0 of the vectors). -/
def testLut : List (Byte × WaveformId) := [(0x31, .volUp), (0x32, .volDown), (0x33, .input)]

/-- A provisioned block with the given capacities and odd-length policy. -/
def cfgOf (cmdCap rawCap : Nat) (p : OddPolicy) : Config where
  busAddr := 0x05
  busAddrWidth := 7
  cmdCap := cmdCap
  rawCap := rawCap
  lutRest := testLut
  waveforms := Vector.ofFn (fun i => 100 + i.val)
  carrierFreq := 38
  interCmdDelay := 40
  tickPeriod := 50
  oddPolicy := p

/-- The state after reset (R135) of a block so provisioned. -/
def stateOf (cmdCap rawCap : Nat) (p : OddPolicy) : State where
  cfg := cfgOf cmdCap rawCap p
  cmd := List.replicate cmdCap 0
  raw := List.replicate rawCap 0
  cursor := 0
  mode := .none
  hstate := .idle
  txnOpen := false
  hi := 0
  hiValid := false
  tickPending := false
  sstate := .idle
  plan := []
  agenda := []
  draws := 0
  obs := []
  absorbed := []
  acks := []

/-- The block at the default capacities (R6) under `DROP`, as the vectors assume. -/
def big : State := stateOf 33 64 .drop

/-- A block at the least capacities R6 allows. -/
def tiny : State := stateOf 2 2 .drop

/-- A block at small capacities. -/
def small : State := stateOf 4 4 .drop

/-- One field of a next state. -/
def fieldOf {α : Type} (r : Result) (f : State → α) : Option α :=
  match r with
  | .next s => some (f s)
  | .fault _ => none
  | .refused _ => none

/-- A buffer whose first slots are the given ones and whose others are 0. -/
def padded (cap : Nat) (slots : List Slot) : List Slot := slots ++ List.replicate (cap - slots.length) 0

/-! ## Well-formedness refuses an ill-formed term for each check -/

theorem test_wf_other_not_proj : Instr.wellFormed small.cfg (.writeOther 0x70 [0x01]) = false := by decide
theorem test_wf_other_not_raw : Instr.wellFormed small.cfg (.writeOther 0x72 []) = false := by decide
theorem test_wf_wait_delay : Instr.wellFormed small.cfg (.drainWait 41) = false := by decide
theorem test_wf_burst_not_empty : Instr.wellFormed small.cfg (.drainEmit2 [] 38) = false := by decide
theorem test_wf_burst_not_too_long : Instr.wellFormed small.cfg (.drainEmit2 [1, 2, 3, 4, 5] 38) = false := by decide
theorem test_wf_burst_no_zero_code : Instr.wellFormed small.cfg (.drainEmit2 [1, 0] 38) = false := by decide
theorem test_wf_burst_carrier : Instr.wellFormed small.cfg (.drainEmit2 [1, 2] 39) = false := by decide
theorem test_wf_admits_every_row :
    ∀ i ∈ [Instr.writeEmpty, .writeProj [0x01], .writeRaw [], .writeOther 0x50 [0x01], .read 0, .tick, .swap,
      .drainEmit1 .ok, .drainWait 40, .drainEmit2 [1, 2, 3, 4] 38], Instr.wellFormed small.cfg i = true := by decide
theorem test_cfg_needs_two_slots : ¬ (cfgOf 1 2 .drop).valid ∧ ¬ (cfgOf 2 1 .drop).valid ∧ small.cfg.valid := by decide

/-! ## Decoding, each constructor from bytes the spec writes out -/

/-- R88: no byte. -/
theorem test_decode_empty : decodeTableWord 0 0 = some .writeEmpty := by decide
/-- X1, `W[0x70, 0x01, 0x50]`: first byte 0111_0000. -/
theorem test_decode_proj :
    decodeTableWord 24 0b01010000_00000001_01110000 = some (.writeProj [0x01, 0x50]) := by decide
/-- X2, `W[0x72, 0x01, 0x02, 0x03, 0x04]`: first byte 0111_0010. -/
theorem test_decode_raw :
    decodeTableWord 40 0b00000100_00000011_00000010_00000001_01110010 = some (.writeRaw [1, 2, 3, 4]) := by decide
/-- W17, the upper-case selector 0101_0000 is another one. -/
theorem test_decode_other : decodeTableWord 24 0b01010000_00000001_01010000 = some (.writeOther 0x50 [1, 0x50]) := by
  decide
/-- The selectors match in all eight bits (R68): one bit away is `WRITE_OTHER`. -/
theorem test_decode_selector_exact :
    decodeMode 0x71 = .none ∧ decodeMode 0x60 = .none ∧ decodeMode 0xF0 = .none ∧ decodeMode 0xF2 = .none := by decide
theorem test_decode_read : decode (.read 33) = .read 33 := by decide
theorem test_decode_tick : decode .timer = .tick := by decide
theorem test_decode_swap : decode .swap = .swap := by decide
theorem test_decode_emit1 : decode (.drain (.emitCH1 .menu)) = .drainEmit1 .menu := by decide
theorem test_decode_wait : decode (.drain (.wait 40)) = .drainWait 40 := by decide
theorem test_decode_emit2 : decode (.drain (.emitCH2 [0x0102, 0x0304] 38)) = .drainEmit2 [0x0102, 0x0304] 38 := by
  decide
/-- A number of bits that is no whole number of bytes is no transaction (R7). -/
theorem test_decode_whole_bytes : decodeTableWord 12 0x170 = none := by decide
/-- A table word stored at reset is the next step's write (the example of R76). -/
theorem test_fetch_word :
    fetchInstr (State.reset.withFetchWord 24 0x500170) = some (.writeProj [0x01, 0x50]) := by decide
/-- R77, the pseudo-operations. -/
theorem test_pseudo :
    pseudoProj 5 [0x31, 0x32] = [.busWrite 5 [0x70, 0x02, 0x31, 0x32]] ∧
    pseudoRawsend 5 [0x0102, 0x0304] = [.busWrite 5 [0x72, 0x01, 0x02, 0x03, 0x04]] ∧
    pseudoProbe 5 0x72 = [.busWrite 5 [0x72]] ∧
    pseudoDump big.cfg 0x72 = [.busWrite 5 [0x72], .busRead 5 64] ∧
    pseudoDump big.cfg 0x70 = [.busWrite 5 [0x70], .busRead 5 33] := by decide

/-! ## Writes -/

/-- The state W1 and W2 start from. -/
def afterX1 : State := { big with mode := .proj, cursor := 2, cmd := padded 33 [0x0001, 0x0050] }

/-- The bytes b1 to bn of the vectors, all different. -/
def bytesTo (n : Nat) : List Byte := (List.range n).map (fun k => BitVec.ofNat 8 (k + 1))

/-- W1 and EX1. -/
theorem test_write_empty :
    fieldOf (exec .writeEmpty afterX1) (fun s => (s.cmd, s.mode, s.cursor, s.absorbed)) =
      some (afterX1.cmd, .proj, 2, [.zeroLength]) := by decide
/-- X1. -/
theorem test_write_proj :
    fieldOf (exec (.writeProj [0x01, 0x50]) big) (fun s => (s.cmd, s.mode, s.cursor)) =
      some (padded 33 [0x0001, 0x0050], .proj, 2) := by decide
/-- W3 and EX3: 34 payload bytes wrap once. -/
theorem test_write_proj_wraps :
    fieldOf (exec (.writeProj (bytesTo 34)) big) (fun s => (s.cmd, s.cursor, s.absorbed)) =
      some ((34 : Slot) :: ((bytesTo 33).drop 1).map (fun b => b.setWidth 16), 1, [.bufferOverrun]) := by decide
/-- W10, `DROP`, EX5. -/
theorem test_write_raw_drop :
    fieldOf (exec (.writeRaw [0x01, 0x02, 0x03]) big) (fun s => (s.raw, s.mode, s.cursor, s.absorbed)) =
      some (padded 64 [0x0102], .raw, 1, [.oddLength]) := by decide
/-- W11, `PAD`, and W12, `REJECT`. -/
theorem test_write_raw_pad_reject :
    fieldOf (exec (.writeRaw [0x01, 0x02, 0x03]) (stateOf 33 64 .pad)) (fun s => (s.raw, s.mode, s.cursor)) =
      some (padded 64 [0x0102, 0x0300], .raw, 2) ∧
    fieldOf (exec (.writeRaw [0x01, 0x02, 0x03]) (stateOf 33 64 .reject)) (fun s => (s.raw, s.mode, s.cursor)) =
      some (padded 64 [0x0102], .none, 1) := by decide
/-- W16 and EX6. -/
theorem test_write_other :
    fieldOf (exec (.writeOther 0x78 [0x01, 0x02]) afterX1) (fun s => (s.cmd, s.mode, s.cursor, s.absorbed)) =
      some (afterX1.cmd, .none, 0, [.unrecognizedMode, .unrecognizedMode]) := by decide
/-- W22. -/
theorem test_write_elsewhere :
    fieldOf (step { big with agenda := [.busWrite 0x06 [0x70, 0x01]] }) (fun s => decide (s = big)) = some true := by
  decide

/-! ## Reads -/

/-- RD1. -/
theorem test_read :
    fieldOf (exec (.read 33) { afterX1 with cursor := 0 }) (fun s => (s.obs, s.cursor)) =
      some (Obs.delivered 0x01 :: .delivered 0x50 :: List.replicate 31 (.delivered 0x00), 1) := by decide
/-- RD8: only the low byte of a raw code, and the cursor wraps. -/
theorem test_read_raw :
    fieldOf (exec (.read 1) { big with mode := .raw, cursor := 63, raw := big.raw.set 63 0xABCD })
      (fun s => (s.obs, s.cursor)) = some ([.delivered 0xCD], 0) := by decide

/-! ## Tick, swap, drain -/

/-- T1: a tick while a write is open is pending, and no swap is enabled. -/
theorem test_tick :
    fieldOf (exec .tick { big with txnOpen := true }) (fun s => (s.tickPending, swapEnabled s)) =
      some (true, false) := by decide
/-- S2 and EX2: the unmapped code is skipped, with no second wait. -/
theorem test_swap_proj :
    fieldOf (exec .swap { big with tickPending := true, mode := .proj, cmd := padded 33 [3, 0x31, 0x7A, 0x33] })
      (fun s => (s.plan, s.mode, s.cmd, s.absorbed)) =
      some ([.emitCH1 .volUp, .wait 40, .emitCH1 .input], .none, big.cmd, [.unmappedCommand]) := by decide
/-- W18: the stale slots behind a shorter second write are sent too. -/
theorem test_swap_raw :
    fieldOf (exec .swap { big with tickPending := true, mode := .raw, raw := padded 64 [0x0708, 0x0304, 0x0506] })
      (fun s => (s.plan, s.sstate, s.tickPending, s.raw)) =
      some ([.emitCH2 [0x0708, 0x0304, 0x0506] 38], .drain, false, big.raw) := by decide
/-- R110: channel 1 gets the code of the twelfth function; the last action ends the drain. -/
theorem test_drain_emit1 :
    fieldOf (exec (.drainEmit1 .escape) { big with sstate := .drain, plan := [.emitCH1 .escape] })
      (fun s => (s.obs, s.sstate, s.plan)) = some ([.sent1 .escape 111], .idle, []) := by decide
/-- P6, step 7. -/
theorem test_drain_wait :
    fieldOf (exec (.drainWait 40) { big with sstate := .drain, plan := [.wait 40, .emitCH1 .power] })
      (fun s => (s.obs, s.sstate, s.plan)) = some ([.waited 40], .drain, [.emitCH1 .power]) := by decide
/-- X2, step 3. -/
theorem test_drain_emit2 :
    fieldOf (exec (.drainEmit2 [0x0102, 0x0304] 38) { big with sstate := .drain, plan := [.emitCH2 [0x0102, 0x0304] 38] })
      (fun s => (s.obs, s.sstate)) = some ([.sent2 [0x0102, 0x0304] 38], .idle) := by decide

/-! ## A witness for the hypotheses of every obligation

Each theorem shows a state and operands that meet the hypotheses of the obligation it is named after, all together and
clause by clause, at the least capacities or at the edge of a range where the obligation has one. -/

/-- `RunInv` as a check that evaluates. -/
def runInvCheck (s : State) : Bool :=
  decide s.cfg.valid && decide (Memory.wf s) && decide (s.cursor < max s.cfg.cmdCap s.cfg.rawCap) &&
    s.cmd.all (fun v => highByte v == 0) && decide (handlerInv s) && decide (planInv s) && agendaOk s.txnOpen s.agenda

theorem runInv_iff_check (s : State) : RunInv s ↔ runInvCheck s = true := by
  simp only [RunInv, storeInv, runInvCheck, Bool.and_eq_true, decide_eq_true_eq, List.all_eq_true, beq_iff_eq]
  tauto

/-- Events in an order that can come, of every kind. -/
def someEvents : List Event :=
  [.busWrite 5 [0x70, 0x01, 0x31], .busWrite 6 [], .busRead 5 3, .busRead 6 1, .wstart, .timer, .wbyte 0x72, .own,
   .wbyte 0x01, .wstop, .wstart, .wbyte 0x70, .reset, .own]

/-- A swap is enabled, in each mode; the second projector code is unmapped. -/
def swapping (m : Mode) : State :=
  { small with tickPending := true, mode := m, cmd := [3, 0x31, 0x7A, 0x33], raw := [0x0102, 0x0304, 0, 0], cursor := 3 }

/-- A swap is enabled at the least capacities, both buffers as full as they can be. -/
def swappingTiny (m : Mode) : State :=
  { tiny with tickPending := true, mode := m, cmd := [1, 0x50], raw := [0x0102, 0x0304], cursor := 1 }

/-- A drain of three actions is in progress. -/
def draining : State :=
  { small with sstate := .drain, plan := [.emitCH1 .volUp, .wait 40, .emitCH1 .input], cursor := 2 }

/-- A drain of one burst is in progress. -/
def drainingBurst : State := { small with sstate := .drain, plan := [.emitCH2 [1, 2, 3, 4] 38] }

/-- A write is open, and its payload awaited in the given mode. -/
def payloadOf (m : Mode) (v : Bool) : State :=
  { tiny with txnOpen := true, hstate := .awaitingPayload, mode := m, hi := 0xAB, hiValid := v, cursor := 1 }

/-- The same under another odd-length policy. -/
def payloadUnder (p : OddPolicy) : State := { payloadOf .raw true with cfg := cfgOf 2 2 p }

theorem witness_InvariantHoldsAtReset : agendaOk false someEvents = true := by decide

theorem witness_StepKeepsInvariant :
    (∀ s ∈ [small, swapping .proj, swappingTiny .raw, draining, drainingBurst, payloadOf .none false],
      RunInv { s with agenda := .timer :: .own :: [] } ∧
      isNext (step { s with agenda := .timer :: .own :: [] }) = true) ∧
    RunInv { small with agenda := someEvents } ∧ RunInv { tiny with agenda := someEvents } ∧
    RunInv { payloadOf .raw true with agenda := [.wbyte 0xCD, .wstop] } := by
  simp only [runInv_iff_check]; decide
theorem witness_StepNeverStops : RunInv { draining with agenda := someEvents } ∧ RunInv (swappingTiny .proj) := by
  simp only [runInv_iff_check]; decide
theorem witness_CmdUpperBytesAreZeroInEveryRun :
    agendaOk false someEvents = true ∧
    fieldOf (step { State.reset with agenda := someEvents }) (fun s => s.cmd[1]?) = some (some 0x0031) := by decide

theorem witness_NoStepWritesTheConfiguration : isNext (step { draining with agenda := someEvents }) = true := by decide

theorem witness_ResetInUseAbandonsWriteAndPlan :
    ({ draining with agenda := [.reset, .timer], txnOpen := true }).agenda = .reset :: [.timer] := by decide

theorem witness_DecodeUndoesEncode :
    Instr.wellFormed small.cfg (.writeRaw [0x01, 0x02]) = true ∧
    encodeTableWord (.writeRaw [0x01, 0x02]) = some (24, 0x020172) ∧
    Instr.wellFormed small.cfg .writeEmpty = true ∧ encodeTableWord .writeEmpty = some (0, 0) := by decide

theorem witness_StepRunsTheDecodedOperation :
    ({ small with agenda := [.busWrite 5 [0x72], .own] }).agenda = .busWrite small.cfg.busAddr [0x72] :: [.own] ∧
    ({ small with agenda := [.busRead 5 2] }).agenda = .busRead small.cfg.busAddr 2 :: [] ∧
    ({ small with agenda := [.timer] }).agenda = .timer :: [] ∧
    ((swapping .raw).agenda = [] ∧ swapEnabled (swapping .raw) = true) ∧
    (draining.agenda = [] ∧ draining.sstate = .drain ∧ draining.plan = .emitCH1 .volUp :: draining.plan.tail) ∧
    (({ small with agenda := [.own, .timer] }).agenda = .own :: [.timer] ∧ swapEnabled small = false ∧
      small.sstate = .idle) := by decide

theorem witness_OtherAddressesAreInvisible :
    (0x06 : Nat) ≠ small.cfg.busAddr ∧ (0 : Nat) ≠ small.cfg.busAddr ∧
    ({ small with agenda := [.busWrite 6 [0x70]] }).agenda = .busWrite 6 [0x70] :: [] ∧
    ({ small with agenda := [.busRead 0 1] }).agenda = .busRead 0 1 :: [] := by decide

theorem witness_StoreWritesWrapsAndPreclears :
    ∀ b ∈ [Buf.cmd, Buf.raw], ∀ s ∈ [tiny, { tiny with cursor := 1 }, { small with cursor := 3 }],
      2 ≤ bufCap s.cfg b ∧ (s.buf b).length = bufCap s.cfg b := by decide

theorem witness_LoadReadsTheWrappedSlot : tiny.cfg.valid ∧ Memory.wf tiny := by decide

theorem witness_StartOpensTheTransaction :
    (({ draining with agenda := [.wstart] }).agenda = .wstart :: [] ∧ draining.txnOpen = false) ∧
    (({ payloadOf .raw true with agenda := [.wstart] }).agenda = .wstart :: [] ∧
      (payloadOf .raw true).txnOpen = true) := by decide

theorem witness_PortEventsOutOfOrderAreRefused :
    (({ payloadOf .raw true with agenda := [.wstart] }).agenda = .wstart :: [] ∧
      (payloadOf .raw true).txnOpen = true) ∧
    (({ small with agenda := [.wbyte 0x70] }).agenda = .wbyte 0x70 :: [] ∧ small.txnOpen = false) ∧
    (({ draining with agenda := [.wstop] }).agenda = .wstop :: [] ∧ draining.txnOpen = false) := by decide

theorem witness_FirstByteIsTheModeByte :
    ({ small with txnOpen := true, agenda := [.wbyte 0x70] }).agenda = .wbyte 0x70 :: [] ∧
    ({ small with txnOpen := true, agenda := [.wbyte 0x72] }).agenda = .wbyte 0x72 :: [] ∧
    ({ small with txnOpen := true, agenda := [.wbyte 0x00] }).agenda = .wbyte 0x00 :: [] ∧
    ({ small with txnOpen := true }).txnOpen = true ∧ small.hstate = .idle := by decide

theorem witness_ProjectorByteIsStoredWidened :
    ∀ c ∈ [0, 1],
      ({ payloadOf .proj false with cursor := c, agenda := [.wbyte 0xFF] }).agenda = .wbyte 0xFF :: [] ∧
      (payloadOf .proj false).txnOpen = true ∧ (payloadOf .proj false).hstate = .awaitingPayload ∧
      (payloadOf .proj false).mode = .proj := by decide

theorem witness_RawBytesArePairedBigEndian :
    ∀ v ∈ [false, true],
      ({ payloadOf .raw v with agenda := [.wbyte 0xCD] }).agenda = .wbyte 0xCD :: [] ∧
      (payloadOf .raw v).txnOpen = true ∧ (payloadOf .raw v).hstate = .awaitingPayload ∧
      (payloadOf .raw v).mode = .raw ∧ (payloadOf .raw v).hiValid = v := by decide

theorem witness_PayloadWithoutModeIsDiscarded :
    ({ payloadOf .none false with agenda := [.wbyte 0x50] }).agenda = .wbyte 0x50 :: [] ∧
    (payloadOf .none false).txnOpen = true ∧ (payloadOf .none false).hstate = .awaitingPayload ∧
    (payloadOf .none false).mode = .none := by decide

theorem witness_StopClosesAndAppliesTheOddPolicy :
    (({ tiny with txnOpen := true, agenda := [.wstop] }).agenda = .wstop :: [] ∧ tiny.hstate = .idle) ∧
    ((payloadOf .proj false).txnOpen = true ∧ (payloadOf .proj false).hstate = .awaitingPayload ∧
      ¬ ((payloadOf .proj false).mode = .raw ∧ (payloadOf .proj false).hiValid = true)) ∧
    ∀ p ∈ [OddPolicy.drop, .pad, .reject],
      ({ payloadUnder p with agenda := [.wstop] }).agenda = .wstop :: [] ∧ (payloadUnder p).txnOpen = true ∧
      (payloadUnder p).hstate = .awaitingPayload ∧ (payloadUnder p).mode = .raw ∧
      (payloadUnder p).hiValid = true ∧ (payloadUnder p).cfg.oddPolicy = p := by decide

theorem witness_ByteStepsMakeTheWholeWrite : draining.txnOpen = false := by decide

/-- Of `EmptyWriteIsANoOp`, `ProjectorWriteClosedForm` and `RawWriteClosedForm`: at rest, in a drain, with a swap
enabled, at small and at the least capacities. -/
theorem witness_TransactionsOnAClosedBus :
    ∀ s ∈ [small, tiny, draining, swapping .none, swappingTiny .raw], RunInv s ∧ s.txnOpen = false := by
  simp only [runInv_iff_check]; decide
theorem witness_OtherWriteSetsNoModeAndStoresNothing :
    (0x71 : Byte) ≠ 0x70 ∧ (0x71 : Byte) ≠ 0x72 ∧ RunInv (swapping .proj) ∧ (swapping .proj).txnOpen = false := by
  simp only [runInv_iff_check]; decide
theorem witness_NoTransactionInsideAnother : (payloadOf .raw true).txnOpen = true := by decide

theorem witness_ExactlyFullBufferPlansNothing :
    RunInv tiny ∧ tiny.txnOpen = false ∧ [(0x01 : Byte), 0x50].length = tiny.cfg.cmdCap ∧
    [(0x01 : Byte), 0x02, 0x03, 0x04].length = 2 * tiny.cfg.rawCap := by
  simp only [runInv_iff_check]; decide
theorem witness_BlockNeverNacks :
    isNext (step { small with agenda := someEvents }) = true ∧ small.txnOpen = false := by decide

theorem witness_ReadStreamsTheActiveBufferAndMovesTheCursor :
    RunInv (swappingTiny .raw) ∧ (swappingTiny .raw).txnOpen = false ∧
    Buf.raw = (if (swappingTiny .raw).mode = .raw then Buf.raw else Buf.cmd) ∧
    2 = (if (swappingTiny .raw).mode = .raw then tiny.cfg.rawCap else tiny.cfg.cmdCap) ∧
    1 = (swappingTiny .raw).cursor % 2 ∧ (0 < 3 ∧ 0 < 2 - 1) ∧ (1 < 3 ∧ 2 - 1 ≤ 1) := by
  simp only [runInv_iff_check]; decide
theorem witness_CursorAfterConsecutiveReads :
    RunInv { swappingTiny .raw with agenda := [.busRead 5 2, .busRead 5 0, .timer] } ∧
    (swappingTiny .raw).txnOpen = false ∧ (swappingTiny .raw).cursor < modeCap tiny.cfg (swappingTiny .raw).mode ∧
    ({ swappingTiny .raw with agenda := [.busRead 5 2, .busRead 5 0, .timer] }).agenda =
      [2, 0].map (Event.busRead tiny.cfg.busAddr) ++ [.timer] := by
  simp only [runInv_iff_check]; decide
theorem witness_RawHighBytesCannotBeRead :
    (swappingTiny .raw).txnOpen = false ∧
    [(0xFF02 : Slot), 0x0004].map lowByte = (swappingTiny .raw).raw.map lowByte := by decide

/-- Of `ProjectorPlanIsTheSpecLoop`, `SwapInNoModeEmitsNothingButClears` and `PlanOfOneTickIsBounded`: each mode, at
small and at the least capacities. -/
theorem witness_SwapEnabled :
    ∀ m ∈ [Mode.none, .proj, .raw], RunInv (swapping m) ∧ swapEnabled (swapping m) = true ∧ (swapping m).mode = m ∧
      RunInv (swappingTiny m) ∧ swapEnabled (swappingTiny m) = true ∧ (swappingTiny m).mode = m := by
  simp only [runInv_iff_check]; decide
theorem witness_ReadsAfterASwapSeeZeros :
    RunInv (swapping .raw) ∧ swapEnabled (swapping .raw) = true ∧ 0 < 2 ∧
    0 < (swapping .raw).cfg.cmdCap - (swapping .raw).cursor % (swapping .raw).cfg.cmdCap := by
  simp only [runInv_iff_check]; decide
theorem witness_TickTriggersMergeUntilTheSwap :
    (swapping .proj).tickPending = true ∧ swapEnabled (swapping .proj) = true := by decide

theorem witness_SwapIsEnabledExactlyWhen :
    ((swapping .proj).tickPending = true ∧ (swapping .proj).txnOpen = false ∧ (swapping .proj).sstate = .idle) ∧
    ¬ (small.tickPending = true ∧ small.txnOpen = false ∧ small.sstate = .idle) ∧
    ¬ ({ swapping .proj with txnOpen := true }).txnOpen = false ∧
    ¬ ({ draining with tickPending := true }).sstate = .idle := by decide

theorem witness_SwapPlansAndClearsAtOnce :
    (swapping .proj).tickPending = true ∧ (swapping .proj).txnOpen = false ∧ (swapping .proj).sstate = .idle ∧
    planProj (swapping .proj).cfg (swapping .proj).cmd = [.emitCH1 .volUp, .wait 40, .emitCH1 .input] ∧
    planRaw (swapping .raw).cfg (swapping .raw).raw = [.emitCH2 [0x0102, 0x0304] 38] := by decide

theorem witness_WaitsStandOnlyBetweenEmissions :
    RunInv (swapping .proj) ∧ swapEnabled (swapping .proj) = true ∧ (swapping .proj).mode = .proj ∧
    (projScan (swapping .proj)).1 = [.volUp, .input] := by
  simp only [runInv_iff_check]; decide
theorem witness_RawPlanIsTheCodesBeforeTheSentinel :
    (RunInv (swapping .raw) ∧ swapEnabled (swapping .raw) = true ∧ (swapping .raw).mode = .raw ∧
      load .raw 1 (swapping .raw) ≠ 0 ∧ load .raw 2 (swapping .raw) = 0) ∧
    (RunInv (swappingTiny .raw) ∧ swapEnabled (swappingTiny .raw) = true ∧ (swappingTiny .raw).mode = .raw ∧
      load .raw 1 (swappingTiny .raw) ≠ 0) := by
  simp only [runInv_iff_check]; decide
theorem witness_SwapAndWriteInEitherOrder :
    RunInv (swapping .proj) ∧ swapEnabled (swapping .proj) = true ∧ isWrite (.writeRaw [0x01, 0x02]) = true ∧
    isWrite .writeEmpty = true := by
  simp only [runInv_iff_check]; decide
/-- Outside mode `RAW`; in it below both capacities less one; in it at equal capacities, on the last slot. -/
theorem witness_SwapAndReadInEitherOrder :
    (RunInv (swapping .proj) ∧ swapEnabled (swapping .proj) = true ∧ (swapping .proj).mode ≠ .raw) ∧
    (RunInv { swapping .raw with cursor := 2 } ∧ swapEnabled { swapping .raw with cursor := 2 } = true ∧
      2 + 1 < (swapping .raw).cfg.cmdCap ∧ 2 + 1 < (swapping .raw).cfg.rawCap) ∧
    (RunInv (swappingTiny .raw) ∧ swapEnabled (swappingTiny .raw) = true ∧
      (swappingTiny .raw).cfg.cmdCap = (swappingTiny .raw).cfg.rawCap) := by
  simp only [runInv_iff_check]; decide

/-- Of `DrainStepTakesTheHeadOfThePlan`, `DrainEmit1HandsTheWaveformToChannel1` and `DrainEmit2HandsTheBurstToChannel2`:
more actions behind the head, and none. -/
theorem witness_DrainStepTakesTheHeadOfThePlan :
    (draining.sstate = .drain ∧ draining.plan = .emitCH1 .volUp :: draining.plan.tail) ∧
    (drainingBurst.sstate = .drain ∧ drainingBurst.plan = .emitCH2 [1, 2, 3, 4] 38 :: []) := by decide

theorem witness_DrainWaitEmitsNothing :
    ({ draining with plan := draining.plan.tail }).sstate = .drain ∧
    ({ draining with plan := draining.plan.tail }).plan = .wait 40 :: [.emitCH1 .input] := by decide

theorem witness_DrainOperationNeedsItsAction :
    ¬ (small.sstate = .drain ∧ ∃ more : List Action, small.plan = .wait 40 :: more) ∧
    ¬ (draining.sstate = .drain ∧ ∃ more : List Action, draining.plan = .wait 40 :: more) := by
  constructor
  · exact fun h => absurd h.1 (by decide)
  · rintro ⟨-, more, h⟩
    exact absurd (List.cons.inj h).1 (by decide)

theorem witness_DrainPerformsThePlanInOrder : RunInv draining ∧ draining.sstate = .drain ∧ draining.agenda = [] := by
  simp only [runInv_iff_check]; decide
/-- Of `DrainCommutesWithWritesAndTicks` and `DrainCommutesWithReads`. -/
theorem witness_DrainCommutes :
    isWrite (.writeProj [0x01]) = true ∧ isNext (exec (.writeProj [0x01]) draining) = true ∧
    isNext (exec .tick draining) = true ∧ isNext (exec (.read 5) draining) = true ∧
    isNext (exec (decodeAction (.emitCH1 .volUp)) draining) = true := by decide

theorem witness_BlockReachesQuiescence :
    RunInv { draining with tickPending := true } ∧ draining.txnOpen = false ∧ draining.agenda = [] ∧
    RunInv (swappingTiny .proj) ∧ (swappingTiny .proj).txnOpen = false ∧ (swappingTiny .proj).agenda = [] := by
  simp only [runInv_iff_check]; decide
/-- The events that follow the swap: turns of the block, a tick, a read, a write to another address, a reset. -/
def noWrites : List Event := [.own, .timer, .busRead 5 2, .busWrite 6 [0x70], .own, .reset]

/-- Of `NoWriteNoFurtherEmission` and the first clause of `QuietInvariantHoldsAfterASwapAndAtReset`. -/
theorem witness_NoWriteNoFurtherEmission :
    RunInv { swapping .proj with agenda := noWrites } ∧
    isNext (exec .swap { swapping .proj with agenda := noWrites }) = true ∧
    ∀ ev ∈ noWrites, isNoWrite small.cfg.busAddr ev = true := by
  simp only [runInv_iff_check]; decide

theorem witness_QuietInvariantHoldsAtReset :
    agendaOk false noWrites = true ∧ ∀ ev ∈ noWrites, isNoWrite State.reset.cfg.busAddr ev = true := by decide

/-- In the middle of a drain, one action of the swap's plan performed. -/
theorem witness_EveryStepKeepsTheQuietInvariant :
    quietInv (.emitCH1 .ok :: draining.plan) []
      { draining with agenda := noWrites, obs := [.sent1 .ok (waveform draining.cfg .ok)] } ∧
    isNext (step { draining with agenda := noWrites }) = true := by
  refine ⟨⟨?_, rfl, rfl, by decide, 1, .inl rfl, rfl⟩, by decide⟩
  rw [runInv_iff_check]
  decide

theorem witness_RawCodesReachChannel2Intact :
    (RunInv { tiny with agenda := pseudoRawsend 5 [0x0102] ++ [.timer] } ∧
      quiescent { tiny with agenda := pseudoRawsend 5 [0x0102] ++ [.timer] } = true ∧
      [(0x0102 : Slot)].length < tiny.cfg.rawCap) ∧
    allZero tiny.raw ∧ ∀ v ∈ [(0x0102 : Slot)], v ≠ 0 := by
  refine ⟨by simp only [runInv_iff_check]; decide, fun v hv => List.eq_of_mem_replicate hv, ?_⟩
  simp only [List.mem_singleton, forall_eq]
  decide

theorem witness_ProjectorCodesReachChannel1Intact :
    RunInv { small with agenda := pseudoProj 5 [0x31, 0x7A] ++ [.timer] } ∧
    quiescent { small with agenda := pseudoProj 5 [0x31, 0x7A] ++ [.timer] } = true ∧
    [(0x31 : Byte), 0x7A].length ≤ small.cfg.cmdCap - 2 ∧ [(0x31 : Byte), 0x7A].all (· != 0) = true ∧
    RunInv { tiny with agenda := pseudoProj 5 [] ++ [.timer] } ∧ ([] : List Byte).length ≤ tiny.cfg.cmdCap - 2 := by
  simp only [runInv_iff_check]; decide
end Sys2Proof.Tests
end

/-! # Family `10_state.md`: the run invariant, the configuration, the tick

The invariant is split in two. `BlockInv` is what holds of the block itself; each operation keeps it, one lemma per
operation. The order of the events to come is a matter of the agenda alone and of whether a write is open, so it is
followed apart (`openAfter`). Both meet again in `runInv_of_step`. -/

namespace Sys2Proof.Machine

/-! ## What an event leaves of the configuration, of the agenda and of the open transaction -/

/-- No operation writes the configuration (R30). -/
theorem exec_cfg {i : Instr} {s t : State} (h : exec i s = .next t) : t.cfg = s.cfg := by
  obtain ⟨_, -, -, rfl⟩ | ⟨_, -, -, rfl⟩ | ⟨-, rfl⟩ | ⟨-, -, rfl⟩ | ⟨_, -, -, rfl⟩ := exec_cases i s t h <;> simp

/-- No port event writes the configuration (R30). -/
theorem portStep_cfg {s t : State} (h : portStep s = .next t) : t.cfg = s.cfg := by
  obtain ⟨_, -, -, rfl⟩ | ⟨_, _, -, -, rfl⟩ | ⟨_, -, -, rfl⟩ | ⟨_, -, rfl⟩ | rfl := portStep_cases s t h <;> simp

theorem step_cfg {s t : State} (h : step s = .next t) : t.cfg = s.cfg := by
  obtain ⟨_, -, hx⟩ | ⟨-, hp⟩ := step_cases s t h
  · exact (exec_cfg hx).trans (advance_cfg s)
  · exact portStep_cfg hp

theorem exec_agenda {i : Instr} {s t : State} (h : exec i s = .next t) : t.agenda = s.agenda := by
  obtain ⟨_, -, -, rfl⟩ | ⟨_, -, -, rfl⟩ | ⟨-, rfl⟩ | ⟨-, -, rfl⟩ | ⟨_, -, -, rfl⟩ := exec_cases i s t h <;> simp

/-- A whole transaction leaves the bus as closed as it found it. -/
theorem exec_txnOpen {i : Instr} {s t : State} (h : exec i s = .next t) : t.txnOpen = s.txnOpen := by
  obtain ⟨_, -, hc, rfl⟩ | ⟨_, -, -, rfl⟩ | ⟨-, rfl⟩ | ⟨-, -, rfl⟩ | ⟨_, -, -, rfl⟩ := exec_cases i s t h
  · rw [writeTransaction_txnOpen, hc]
  all_goals simp

theorem portStep_agenda {s t : State} (h : portStep s = .next t) : t.agenda = s.agenda.tail := by
  obtain ⟨_, -, -, rfl⟩ | ⟨_, _, -, -, rfl⟩ | ⟨_, -, -, rfl⟩ | ⟨_, -, rfl⟩ | rfl := portStep_cases s t h <;> simp

/-- Every step takes one event from the agenda, and lists none. -/
theorem step_agenda {s t : State} (h : step s = .next t) : t.agenda = s.agenda.tail := by
  obtain ⟨_, -, hx⟩ | ⟨-, hp⟩ := step_cases s t h
  · exact (exec_agenda hx).trans (advance_agenda s)
  · exact portStep_agenda hp

/-- Whether a write is open once the first of the given events is taken, where `o` says whether one is before it. -/
def openAfter (o : Bool) : List Event → Bool
  | .wstart :: _ => true
  | .wstop :: _ => false
  | .reset :: _ => false
  | .busWrite _ _ :: _ => o
  | .busRead _ _ :: _ => o
  | .wbyte _ :: _ => o
  | .timer :: _ => o
  | .own :: _ => o
  | [] => o

/-- An order of events that can come can still come with its first event taken. -/
theorem agendaOk_tail {o : Bool} {evs : List Event} (h : agendaOk o evs = true) :
    agendaOk (openAfter o evs) evs.tail = true := by
  cases evs with
  | nil => rfl
  | cons ev rest =>
    cases ev with
    | busWrite | busRead | wstart | wbyte | wstop => exact (Bool.and_eq_true_iff.mp h).2
    | timer | own | reset => exact h

theorem portStep_txnOpen {s t : State} (h : portStep s = .next t) : t.txnOpen = openAfter s.txnOpen s.agenda := by
  unfold portStep at h
  split at h <;> (try split at h) <;> cases h <;> simp_all [openAfter]

/-! ## Which operation a step runs, and that it can -/

theorem ownFrame_cases {s : State} {f : Frame} (h : ownFrame s = some f) :
    (f = .swap ∧ swapEnabled s = true) ∨ ∃ a, f = .drain a ∧ drainEnabled a s = true := by
  unfold ownFrame at h
  split at h
  · cases h; exact .inl ⟨rfl, ‹_›⟩
  · split at h
    next hd =>
      obtain ⟨a, ha, rfl⟩ := Option.map_eq_some_iff.mp h
      exact .inr ⟨a, rfl, by simp [drainEnabled, hd, ha]⟩
    · cases h

/-- Everything a step's frame can be (R52, R69): a transaction to the block, the timer's trigger, or at the block's own
turn the step its state enables. -/
theorem fetchFrame_cases {s : State} {f : Frame} (h : fetchFrame s = some f) :
    (∃ bytes rest, s.agenda = .busWrite s.cfg.busAddr bytes :: rest ∧ f = .write bytes) ∨
    (∃ n rest, s.agenda = .busRead s.cfg.busAddr n :: rest ∧ f = .read n) ∨
    (∃ rest, s.agenda = .timer :: rest ∧ f = .timer) ∨
    ((s.agenda = [] ∨ ∃ rest, s.agenda = .own :: rest) ∧
      ((f = .swap ∧ swapEnabled s = true) ∨ ∃ a, f = .drain a ∧ drainEnabled a s = true)) := by
  unfold fetchFrame at h
  split at h
  next ha => exact .inr (.inr (.inr ⟨.inl ha, ownFrame_cases h⟩))
  next rest ha => exact .inr (.inr (.inr ⟨.inr ⟨rest, ha⟩, ownFrame_cases h⟩))
  next ev rest _ ha =>
    cases ev with
    | busWrite addr bytes =>
      obtain ⟨rfl, rfl⟩ : addr = s.cfg.busAddr ∧ .write bytes = f := by simpa [Event.frame] using h
      exact .inl ⟨bytes, rest, ha, rfl⟩
    | busRead addr n =>
      obtain ⟨rfl, rfl⟩ : addr = s.cfg.busAddr ∧ .read n = f := by simpa [Event.frame] using h
      exact .inr (.inl ⟨n, rest, ha, rfl⟩)
    | timer => cases h; exact .inr (.inr (.inl ⟨rest, ha, rfl⟩))
    | wstart => cases h
    | wbyte b => cases h
    | wstop => cases h
    | own => cases h
    | reset => cases h

/-- An event that is an operation opens and closes nothing. -/
theorem openAfter_of_fetch {s : State} {f : Frame} (h : fetchFrame s = some f) (o : Bool) :
    openAfter o s.agenda = o := by
  obtain ⟨_, _, ha, -⟩ | ⟨_, _, ha, -⟩ | ⟨_, ha, -⟩ | ⟨ha | ⟨_, ha⟩, -⟩ := fetchFrame_cases h <;> rw [ha] <;> rfl

theorem step_txnOpen {s t : State} (h : step s = .next t) : t.txnOpen = openAfter s.txnOpen s.agenda := by
  obtain ⟨_, hf, hx⟩ | ⟨-, hp⟩ := step_cases s t h
  · rw [openAfter_of_fetch hf]
    exact (exec_txnOpen hx).trans (advance_txnOpen s)
  · exact portStep_txnOpen hp

/-- Every step leaves an order of events that can come. -/
theorem agendaOk_of_step {s t : State} (h : step s = .next t) (ha : agendaOk s.txnOpen s.agenda = true) :
    agendaOk t.txnOpen t.agenda = true := by
  rw [step_txnOpen h, step_agenda h]
  exact agendaOk_tail ha

theorem exec_swap_of_enabled {s : State} (h : swapEnabled s = true) : exec .swap s = .next (swapState s) :=
  if_pos h

theorem drainStep_of_enabled {a : Action} {s : State} (h : drainEnabled a s = true) :
    drainStep a s = .next (performHead a s) :=
  if_pos h

theorem execRead_of_closed (n : Nat) {s : State} (h : s.txnOpen = false) :
    execRead n s = .next (readTransaction n s) := by
  simp [execRead, h]

/-- The operation of an event that can come completes. -/
theorem exec_completes_of_fetch {s : State} {f : Frame} (hf : fetchFrame s = some f)
    (ha : agendaOk s.txnOpen s.agenda = true) : ∃ t, exec (decode f) (advance s) = .next t := by
  obtain ⟨bytes, rest, he, rfl⟩ | ⟨n, rest, he, rfl⟩ | ⟨rest, -, rfl⟩ | ⟨-, ⟨rfl, hs⟩ | ⟨a, rfl, hd⟩⟩ :=
    fetchFrame_cases hf
  · have hc : s.txnOpen = false := by simp_all [agendaOk]
    exact ⟨_, (exec_decodeWrite bytes _).trans (busWrite_of_closed bytes _ hc)⟩
  · have hc : s.txnOpen = false := by simp_all [agendaOk]
    exact ⟨_, execRead_of_closed n hc⟩
  · exact ⟨_, rfl⟩
  · exact ⟨_, exec_swap_of_enabled hs⟩
  · exact ⟨_, (exec_decodeAction a _).trans (drainStep_of_enabled hd)⟩

/-- A port event that can come completes. -/
theorem portStep_completes {s : State} (ha : agendaOk s.txnOpen s.agenda = true) : ∃ t, portStep s = .next t := by
  cases he : s.agenda with
  | nil => simp [portStep, he]
  | cons ev rest => cases ev <;> simp_all [portStep, agendaOk]

/-- The block is never stuck under events in an order that can come (R127). -/
theorem step_completes {s : State} (ha : agendaOk s.txnOpen s.agenda = true) : ∃ t, step s = .next t := by
  cases hf : fetchFrame s with
  | none => rw [step_of_none s hf]; exact portStep_completes ha
  | some f => rw [step_of_fetch s f hf]; exact exec_completes_of_fetch hf ha

/-! ## The register store -/

theorem cmdCap_pos {cfg : Config} (hv : cfg.valid) : 0 < cfg.cmdCap := by
  obtain ⟨hc, -, -⟩ := hv
  omega

theorem rawCap_pos {cfg : Config} (hv : cfg.valid) : 0 < cfg.rawCap := by
  obtain ⟨-, hr, -⟩ := hv
  omega

/-- The cursor's bound (R23) is met by an index into either buffer. -/
theorem mod_bufCap_lt_max {cfg : Config} (hv : cfg.valid) (b : Buf) (n : Nat) :
    n % bufCap cfg b < max cfg.cmdCap cfg.rawCap := by
  cases b
  · exact lt_max_of_lt_left (Nat.mod_lt n (cmdCap_pos hv))
  · exact lt_max_of_lt_right (Nat.mod_lt n (rawCap_pos hv))

theorem highByte_zero : highByte 0 = 0 := by decide

/-- A store keeps the store's invariant where a slot written to `CMD` has upper byte 0 (R20). -/
theorem storeInv_storeCounted {b : Buf} {v : Slot} {s : State} (hv : s.cfg.valid) (h : storeInv s)
    (hb : b = .cmd → highByte v = 0) : storeInv (storeCounted b v s) := by
  obtain ⟨hwf, -, hup⟩ := h
  refine ⟨memory_wf_storeCounted b v s hwf, ?_, fun x hx => ?_⟩
  · rw [storeCounted_cursor, storeCounted_cfg]
    exact mod_bufCap_lt_max hv b _
  · rw [storeCounted_cmd] at hx
    cases b with
    | cmd =>
      obtain rfl | rfl | hx := storeSlots_mem _ _ _ _ _ hx
      · exact highByte_zero
      · exact hb rfl
      · exact hup x hx
    | raw => exact hup x hx

theorem storeInv_modeByte {b : Byte} {s : State} (hv : s.cfg.valid) (h : storeInv s) : storeInv (modeByte b s) := by
  obtain ⟨hwf, -, hup⟩ := h
  exact ⟨hwf, lt_max_of_lt_left (cmdCap_pos hv), hup⟩

theorem storeInv_wbyte {b : Byte} {s : State} (hv : s.cfg.valid) (h : storeInv s) : storeInv (wbyte b s) := by
  obtain ⟨-, e⟩ | ⟨-, -, e⟩ | ⟨-, -, -, e⟩ | ⟨-, -, -, e⟩ | ⟨-, -, e⟩ := wbyte_cases b s <;> rw [e]
  · exact storeInv_modeByte (s := acknowledge s) hv h
  · exact storeInv_storeCounted (s := acknowledge s) hv h fun _ => highByte_zext16 b
  · exact h
  · exact storeInv_storeCounted (b := .raw) (v := bigEndian s.hi b) (s := acknowledge s) hv h nofun
  · exact h

theorem storeInv_wstop {s : State} (hv : s.cfg.valid) (h : storeInv s) : storeInv (wstop s) := by
  show storeInv (wstopEffect s)
  obtain ⟨-, e⟩ | ⟨-, -, e⟩ | ⟨-, -, -, e⟩ | ⟨-, -, -, e⟩ | ⟨-, -, -, e⟩ := wstopEffect_cases s <;> rw [e]
  · exact h
  · exact h
  · exact h
  · exact storeInv_storeCounted (s := absorb .oddLength s) hv h nofun
  · exact h

theorem storeInv_readTransaction {n : Nat} {s : State} (hv : s.cfg.valid) (h : storeInv s) :
    storeInv (readTransaction n s) := by
  obtain ⟨hwf, -, hup⟩ := h
  exact ⟨hwf, mod_bufCap_lt_max hv (activeBuf s.mode) _, hup⟩

/-- Cleared buffers have the form and the upper bytes of the invariant (R103, R135). -/
theorem storeInv_of_cleared {s : State} (hcmd : s.cmd = List.replicate s.cfg.cmdCap 0)
    (hraw : s.raw = List.replicate s.cfg.rawCap 0) (hcur : s.cursor < max s.cfg.cmdCap s.cfg.rawCap) :
    storeInv s := by
  refine ⟨⟨by simp [hcmd], by simp [hraw]⟩, hcur, fun v hv => ?_⟩
  rw [hcmd] at hv
  rw [List.eq_of_mem_replicate hv, highByte_zero]

/-! ## The handler -/

/-- The handler between two transactions meets its invariant. -/
theorem handlerInv_of_rest {s : State} (hh : s.hstate = .idle) (hv : s.hiValid = false) : handlerInv s := by
  simp [handlerInv, hh, hv]

/-- With no write open the handler is at rest and its latch empty (R26, R27). -/
theorem rest_of_closed {s : State} (h : handlerInv s) (hc : s.txnOpen = false) :
    s.hstate = .idle ∧ s.hiValid = false := by
  obtain ⟨hopen, hlatch⟩ := h
  have hh : s.hstate = .idle := by
    cases hs : s.hstate with
    | idle => rfl
    | awaitingPayload => rw [hopen hs] at hc; cases hc
  refine ⟨hh, ?_⟩
  cases hv : s.hiValid with
  | false => rfl
  | true => rw [(hlatch hv).1] at hh; cases hh

/-- A byte inside a write keeps the handler's invariant: only a raw-ir payload byte fills the latch. -/
theorem handlerInv_wbyte {b : Byte} {s : State} (ho : s.txnOpen = true) (h : handlerInv s) :
    handlerInv (wbyte b s) := by
  obtain ⟨-, hlatch⟩ := h
  refine ⟨fun _ => (wbyte_txnOpen b s).trans ho, ?_⟩
  obtain ⟨-, e⟩ | ⟨hs, hm, e⟩ | ⟨hs, hm, -, e⟩ | ⟨hs, hm, -, e⟩ | ⟨hs, hm, e⟩ := wbyte_cases b s <;> rw [e]
  · exact nofun
  · simpa using hlatch
  · exact fun _ => ⟨hs, hm⟩
  · exact nofun
  · exact hlatch

/-! ## The plan -/

theorem sstateFor_eq_drain_iff (p : List Action) : sstateFor p = .drain ↔ p ≠ [] := by
  cases p <;> simp [sstateFor]

theorem mem_interleave {d : Duration} {ws : List WaveformId} {a : Action} (h : a ∈ interleave d ws) :
    (∃ w, a = .emitCH1 w) ∨ a = .wait d := by
  induction ws using interleave.induct with
  | case1 => cases h
  | case2 w => exact .inl ⟨w, List.mem_singleton.mp h⟩
  | case3 w w' rest ih =>
    obtain rfl | rfl | h : a = .emitCH1 w ∨ a = .wait d ∨ a ∈ interleave d (w' :: rest) := by
      simpa [interleave] using h
    · exact .inl ⟨w, rfl⟩
    · exact .inr rfl
    · exact ih h

theorem interleave_length (d : Duration) (ws : List WaveformId) :
    (interleave d ws).length = 2 * ws.length - 1 := by
  induction ws using interleave.induct with
  | case1 => rfl
  | case2 w => rfl
  | case3 w w' rest ih => simp [interleave, ih]; omega

theorem projCodes_length_le (cfg : Config) (cmd : List Slot) : (projCodes cfg cmd).length ≤ cfg.cmdCap - 1 := by
  refine (List.takeWhile_sublist _).length_le.trans ?_
  rw [List.length_map, List.length_take]
  omega

/-- A projector plan has at most `CMD_CAP - 1` emissions and a wait between two (R115). -/
theorem planProj_length_le (cfg : Config) (cmd : List Slot) : (planProj cfg cmd).length ≤ 2 * cfg.cmdCap - 3 := by
  have hcodes := projCodes_length_le cfg cmd
  have hmapped := List.length_filterMap_le (lookup cfg) (projCodes cfg cmd)
  rw [planProj, interleave_length]
  omega

theorem mem_planProj {cfg : Config} {cmd : List Slot} {a : Action} (h : a ∈ planProj cfg cmd) :
    a.wellFormed cfg = true ∧ onChannel2 a = false := by
  obtain ⟨w, rfl⟩ | rfl := mem_interleave h <;> simp [Action.wellFormed, onChannel2]

/-- A raw plan is empty or the one burst of the codes before the sentinel (R106). -/
theorem planRaw_cases (cfg : Config) (raw : List Slot) :
    planRaw cfg raw = [] ∨
    (rawCodes cfg raw ≠ [] ∧ planRaw cfg raw = [.emitCH2 (rawCodes cfg raw) cfg.carrierFreq]) := by
  unfold planRaw
  cases rawCodes cfg raw <;> simp

/-- The burst of a raw plan has the operands its row admits (R112). -/
theorem wellFormed_rawBurst {cfg : Config} {raw : List Slot} (h : rawCodes cfg raw ≠ []) :
    (Action.emitCH2 (rawCodes cfg raw) cfg.carrierFreq).wellFormed cfg = true := by
  have hpos : 1 ≤ (rawCodes cfg raw).length := List.length_pos_iff.mpr h
  have hcap : (rawCodes cfg raw).length ≤ cfg.rawCap :=
    (List.takeWhile_sublist _).length_le.trans (List.length_take_le _ _)
  have hnz : (rawCodes cfg raw).all (· != 0) = true := List.all_takeWhile
  simp only [Action.wellFormed, hpos, hcap, hnz, decide_true, beq_self_eq_true, Bool.and_self]

/-- Every plan of R104 meets the scheduler's invariant: well-formed actions, the bound of R115, one channel. -/
theorem planInv_of_planOf {s : State} (hv : s.cfg.valid) {m : Mode} {cmd raw : List Slot}
    (hp : s.plan = planOf s.cfg m cmd raw) (hs : s.sstate = sstateFor s.plan) : planInv s := by
  refine ⟨by rw [hs, sstateFor_eq_drain_iff], ?_⟩
  rw [hp]
  cases m with
  | none => exact ⟨nofun, Nat.zero_le _, .inl nofun⟩
  | proj =>
    exact ⟨fun a ha => (mem_planProj ha).1, planProj_length_le s.cfg cmd, .inl fun a ha => (mem_planProj ha).2⟩
  | raw =>
    obtain ⟨hc, -, -⟩ := hv
    obtain e | ⟨hne, e⟩ := planRaw_cases s.cfg raw <;> simp only [planOf, e]
    · exact ⟨nofun, Nat.zero_le _, .inl nofun⟩
    · refine ⟨fun a ha => ?_, ?_, .inr rfl⟩
      · rw [List.mem_singleton.mp ha]
        exact wellFormed_rawBurst hne
      · rw [List.length_singleton]
        omega

/-- A drain step keeps the scheduler's invariant, since it holds of every rest of a plan (R109). -/
theorem planInv_performHead {a : Action} {s : State} (h : planInv s) : planInv (performHead a s) := by
  obtain ⟨-, hwf, hlen, hch⟩ := h
  have hlt : s.plan.tail.length ≤ s.plan.length := by rw [List.length_tail]; omega
  refine ⟨sstateFor_eq_drain_iff _, fun x hx => hwf x (List.mem_of_mem_tail hx), hlt.trans hlen, .inl fun x hx => ?_⟩
  rcases hch with hno | hone
  · exact hno x (List.mem_of_mem_tail hx)
  · have htail : s.plan.tail = [] := List.eq_nil_of_length_eq_zero (by rw [List.length_tail, hone])
    rw [performHead_plan, htail] at hx
    cases hx

/-- The scheduler's invariant speaks of nothing but the configuration, the scheduler state and the plan. -/
theorem planInv_congr {s t : State} (hc : t.cfg = s.cfg) (hs : t.sstate = s.sstate) (hp : t.plan = s.plan)
    (h : planInv s) : planInv t := by
  simpa only [planInv, hc, hs, hp] using h

/-! ## The block's invariant, kept by every operation -/

/-- The run invariant but for the order of the events to come. -/
structure BlockInv (s : State) : Prop where
  valid : s.cfg.valid
  store : storeInv s
  handler : handlerInv s
  plan : planInv s

theorem runInv_iff_blockInv (s : State) : RunInv s ↔ BlockInv s ∧ agendaOk s.txnOpen s.agenda = true := by
  constructor
  · rintro ⟨hv, hs, hh, hp, ha⟩
    exact ⟨⟨hv, hs, hh, hp⟩, ha⟩
  · rintro ⟨⟨hv, hs, hh, hp⟩, ha⟩
    exact ⟨hv, hs, hh, hp, ha⟩

namespace BlockInv

variable {s : State}

theorem advance (h : BlockInv s) : BlockInv (advance s) := ⟨h.valid, h.store, h.handler, h.plan⟩

theorem wstart (h : BlockInv s) : BlockInv (wstart s) :=
  ⟨h.valid, h.store, ⟨fun _ => rfl, h.handler.2⟩, h.plan⟩

theorem wbyte (b : Byte) (ho : s.txnOpen = true) (h : BlockInv s) : BlockInv (wbyte b s) where
  valid := by rw [wbyte_cfg]; exact h.valid
  store := storeInv_wbyte h.valid h.store
  handler := handlerInv_wbyte ho h.handler
  plan := planInv_congr (wbyte_cfg b s) (wbyte_sstate b s) (wbyte_plan b s) h.plan

theorem wbytes (bytes : List Byte) (ho : s.txnOpen = true) (h : BlockInv s) : BlockInv (wbytes bytes s) := by
  induction bytes generalizing s with
  | nil => exact h
  | cons b rest ih => exact ih ((wbyte_txnOpen b s).trans ho) (h.wbyte b ho)

theorem wstop (h : BlockInv s) : BlockInv (wstop s) where
  valid := by rw [wstop_cfg]; exact h.valid
  store := storeInv_wstop h.valid h.store
  handler := handlerInv_of_rest (wstop_hstate s) (wstop_hiValid s)
  plan := planInv_congr (wstop_cfg s) (wstop_sstate s) (wstop_plan s) h.plan

theorem writeTransaction (bytes : List Byte) (h : BlockInv s) : BlockInv (writeTransaction bytes s) :=
  (h.wstart.wbytes bytes rfl).wstop

theorem readTransaction (n : Nat) (h : BlockInv s) : BlockInv (readTransaction n s) :=
  ⟨h.valid, storeInv_readTransaction h.valid h.store, h.handler, h.plan⟩

theorem raiseTick (h : BlockInv s) : BlockInv (raiseTick s) := ⟨h.valid, h.store, h.handler, h.plan⟩

/-- The swap is no step of an open write (R102), so the mode it clears leaves no unpaired byte behind. -/
theorem swapState (he : swapEnabled s = true) (h : BlockInv s) : BlockInv (swapState s) := by
  obtain ⟨-, hclosed, -⟩ := (swapEnabled_iff s).mp he
  obtain ⟨hh, hv⟩ := rest_of_closed h.handler hclosed
  obtain ⟨-, hcur, -⟩ := h.store
  exact ⟨h.valid, storeInv_of_cleared rfl rfl hcur, handlerInv_of_rest hh hv,
    planInv_of_planOf (m := s.mode) (cmd := s.cmd) (raw := s.raw) h.valid rfl rfl⟩

theorem performHead (a : Action) (h : BlockInv s) : BlockInv (performHead a s) :=
  ⟨h.valid, h.store, h.handler, planInv_performHead h.plan⟩

/-- What reset gives the block (R135, R137) meets its invariant, whatever stood before. -/
theorem resetState (hv : s.cfg.valid) : BlockInv (resetState s) :=
  ⟨hv, storeInv_of_cleared rfl rfl (lt_max_of_lt_left (cmdCap_pos hv)),
    handlerInv_of_rest rfl rfl, planInv_of_planOf (m := .none) (cmd := []) (raw := []) hv rfl rfl⟩

theorem exec {i : Instr} {t : State} (hx : exec i s = .next t) (h : BlockInv s) : BlockInv t := by
  obtain ⟨bytes, -, -, rfl⟩ | ⟨n, -, -, rfl⟩ | ⟨-, rfl⟩ | ⟨-, he, rfl⟩ | ⟨a, -, -, rfl⟩ := exec_cases i s t hx
  · exact h.writeTransaction bytes
  · exact h.readTransaction n
  · exact h.raiseTick
  · exact h.swapState he
  · exact h.performHead a

theorem portStep {t : State} (hp : portStep s = .next t) (h : BlockInv s) : BlockInv t := by
  obtain ⟨_, -, -, rfl⟩ | ⟨b, _, -, ho, rfl⟩ | ⟨_, -, -, rfl⟩ | ⟨_, -, rfl⟩ | rfl := portStep_cases s t hp
  · exact h.advance.wstart
  · exact h.advance.wbyte b ho
  · exact h.advance.wstop
  · exact resetState h.advance.valid
  · exact h.advance

theorem step {t : State} (hst : step s = .next t) (h : BlockInv s) : BlockInv t := by
  obtain ⟨_, -, hx⟩ | ⟨-, hp⟩ := step_cases s t hst
  · exact h.advance.exec hx
  · exact h.portStep hp

end BlockInv

/-! ## The invariant along a run -/

theorem runInv_of_step {s t : State} (h : RunInv s) (hst : step s = .next t) : RunInv t := by
  obtain ⟨hb, ha⟩ := (runInv_iff_blockInv s).mp h
  exact (runInv_iff_blockInv t).mpr ⟨hb.step hst, agendaOk_of_step hst ha⟩

/-- From a state with the invariant a run of any length completes, in a state that has it. -/
theorem run_of_runInv (k : Nat) {s : State} (h : RunInv s) : ∃ t, core.run k s = .next t ∧ RunInv t := by
  induction k generalizing s with
  | zero => exact ⟨s, run_zero s, h⟩
  | succ k ih =>
    obtain ⟨-, ha⟩ := (runInv_iff_blockInv s).mp h
    obtain ⟨u, hu⟩ := step_completes ha
    rw [run_succ k s u hu]
    exact ih (runInv_of_step h hu)

/-- The defaults of R6 and R8 are a configuration the spec admits, however wide the address is. -/
theorem provisioned_valid : Config.provisioned.valid := by
  refine ⟨by decide, by decide, ?_⟩
  calc Config.provisioned.busAddr < 2 ^ 3 := by decide
    _ ≤ 2 ^ Config.provisioned.busAddrWidth := Nat.pow_le_pow_right Nat.two_pos (Nat.le_add_right 3 _)

/-- Reset meets the invariant under any events in an order that can come (R135). -/
theorem runInv_reset {evs : List Event} (h : agendaOk false evs = true) :
    RunInv { State.reset with agenda := evs } :=
  (runInv_iff_blockInv _).mpr
    ⟨BlockInv.resetState (s := { State.reset with agenda := evs }) provisioned_valid, h⟩

/-! ## The tick -/

/-- A trigger that finds the tick pending merges into it (R28). -/
theorem raiseTick_of_pending {s : State} (h : s.tickPending = true) : raiseTick s = s := by
  rw [raiseTick, ← h]

/-! ## The obligations of the family -/

/-- Settles O3: each operation keeps the block's invariant, and each event leaves an order that can come. -/
theorem stepKeepsInvariant : Obligations.StepKeepsInvariant := fun _ _ => runInv_of_step

/-- Settles O5, from the invariant of a run that starts at reset. -/
theorem cmdUpperBytesAreZeroInEveryRun : Obligations.CmdUpperBytesAreZeroInEveryRun := by
  intro evs k h
  obtain ⟨t, hrun, -, ⟨-, -, hup⟩, -⟩ := run_of_runInv k (runInv_reset h)
  exact ⟨t, hrun, fun i v hv => hup v (List.mem_of_getElem? hv)⟩

/-- Settles O6: every operation and every port event leaves the configuration alone. -/
theorem noStepWritesTheConfiguration : Obligations.NoStepWritesTheConfiguration := fun _ _ => step_cfg

/-- Settles O34: the tick is `raiseTick`, and the swap takes it. -/
theorem tickTriggersMergeUntilTheSwap : Obligations.TickTriggersMergeUntilTheSwap := by
  refine ⟨fun s => rfl, fun s h => ?_, fun s h => ⟨swapState s, exec_swap_of_enabled h, swapState_tickPending s⟩⟩
  exact congrArg Host.Outcome.next (raiseTick_of_pending h)

end Sys2Proof.Machine

/-! # Family `20_memory.md`: the register store, and what commutes with what

A payload fills its buffer one slot at a time, `CMD` by one byte and `RAW` by a pair. `AwaitsSlot` says how many slots
it has filled, so that both kinds of payload are followed by one induction. -/

namespace Sys2Proof.Machine

/-! ## Store and load -/

theorem slotIndex_lt {b : Buf} {s : State} (hc : 0 < bufCap s.cfg b) : slotIndex b s < bufCap s.cfg b :=
  Nat.mod_lt _ hc

/-- What a load after a store reads (R38, R39). -/
theorem load_store {b : Buf} {v : Slot} {s : State} {j : Nat} (hl : (s.buf b).length = bufCap s.cfg b)
    (hj : j < bufCap s.cfg b) :
    load b j (store b v s) =
      if j = 0 ∧ slotIndex b s = bufCap s.cfg b - 1 then 0 else if j = slotIndex b s then v else load b j s := by
  have hi : slotIndex b s < (s.buf b).length := hl ▸ slotIndex_lt (by omega)
  rw [load_of_lt b j s hj, load_of_lt b j _ (by rwa [store_cfg]), store_buf_self, List.getD_eq_getElem?_getD,
    storeSlots_getElem? _ _ _ _ _ hi]
  split
  · rfl
  · split
    · rfl
    · rw [List.getD_eq_getElem?_getD]

/-- A store writes its own buffer and the cursor only (R38). -/
theorem store_frame (b : Buf) (v : Slot) (s : State) :
    { store b v s with cursor := s.cursor, cmd := s.cmd, raw := s.raw } = s := by
  cases b <;> rfl

/-- In a buffer of its capacity the slot a load reads is there (R39, R40). -/
theorem getElem?_buf_mod {b : Buf} {s : State} (hc : 0 < bufCap s.cfg b) (hl : (s.buf b).length = bufCap s.cfg b)
    (i : Nat) : (s.buf b)[i % bufCap s.cfg b]? = some (load b i s) := by
  have hi : i % bufCap s.cfg b < (s.buf b).length := by rw [hl]; exact Nat.mod_lt i hc
  rw [load, List.getD_eq_getElem?_getD, List.getElem?_eq_getElem hi, Option.getD_some]

theorem buf_length {b : Buf} {s : State} (h : Memory.wf s) : (s.buf b).length = bufCap s.cfg b := by
  obtain ⟨hcmd, hraw⟩ := h
  cases b
  · exact hcmd
  · exact hraw

theorem bufCap_pos {cfg : Config} (hv : cfg.valid) (b : Buf) : 0 < bufCap cfg b := by
  cases b
  · exact cmdCap_pos hv
  · exact rawCap_pos hv

/-! ## The four writes as one -/

/-- Each of the four writes is the transaction of its frame's bytes, whatever the state. -/
theorem exec_of_isWrite {i : Instr} (h : Spec.isWrite i = true) : ∃ bytes, ∀ s, exec i s = busWrite bytes s := by
  cases i with
  | writeEmpty => exact ⟨[], fun _ => rfl⟩
  | writeProj p => exact ⟨selectorProj :: p, fun _ => rfl⟩
  | writeRaw p => exact ⟨selectorRaw :: p, fun _ => rfl⟩
  | writeOther b p => exact ⟨b :: p, fun _ => rfl⟩
  | read | tick | swap | drainEmit1 | drainWait | drainEmit2 => cases h

theorem busWrite_of_open (bytes : List Byte) {s : State} (h : s.txnOpen = true) :
    busWrite bytes s = .refused .busBusy :=
  if_pos h

theorem execRead_of_open (n : Nat) {s : State} (h : s.txnOpen = true) : execRead n s = .refused .busBusy :=
  if_pos h

/-! ## A payload that fills its buffer -/

/-- The mode whose payload goes into a buffer (R80, R81). -/
def storeMode : Buf → Mode
  | .cmd => .proj
  | .raw => .raw

/-- The payload bytes that make one slot of a buffer (R41, R42). -/
def slotBytes : Buf → Nat
  | .cmd => 1
  | .raw => 2

/-- The handler awaits the first byte of a slot of `b`, the payload having filled `k` slots from slot 0 on. -/
structure AwaitsSlot (b : Buf) (k : Nat) (s : State) : Prop where
  awaiting : s.hstate = .awaitingPayload
  mode : s.mode = storeMode b
  latch : s.hiValid = false
  cursor : s.cursor = k % bufCap s.cfg b

theorem wbytes_append (xs ys : List Byte) (s : State) : wbytes (xs ++ ys) s = wbytes ys (wbytes xs s) :=
  List.foldl_append

/-- The first byte of a write is its mode byte (R79). -/
theorem wbytes_cons_of_idle {sel : Byte} {payload : List Byte} {s : State} (hh : s.hstate = .idle) :
    wbytes (sel :: payload) s = wbytes payload (modeByte sel (acknowledge s)) := by
  show wbytes payload (wbyte sel s) = _
  simp [wbyte, hh]

/-- A projector payload byte is one store (R80). -/
theorem wbytes_proj {x : Byte} {s : State} (hh : s.hstate = .awaitingPayload) (hm : s.mode = .proj) :
    wbytes [x] s = storeCounted .cmd (zext16 x) (acknowledge s) := by
  show wbyte x s = _
  simp [wbyte, hh, payloadByte, hm, projByte]

/-- A pair of raw-ir payload bytes is one store, its first byte left in the empty latch (R81). -/
theorem wbytes_pair {x y : Byte} {s : State} (hh : s.hstate = .awaitingPayload) (hm : s.mode = .raw)
    (hv : s.hiValid = false) :
    wbytes [x, y] s =
      { storeCounted .raw (bigEndian x y) (acknowledge { acknowledge s with hi := x, hiValid := true }) with
        hiValid := false } := by
  show wbyte y (wbyte x s) = _
  have hx : wbyte x s = { acknowledge s with hi := x, hiValid := true } := by
    simp [wbyte, hh, payloadByte, hm, rawByte, hv]
  rw [hx]
  simp [wbyte, hh, payloadByte, hm, rawByte]

namespace AwaitsSlot

variable {b : Buf} {k : Nat} {s : State} {bytes : List Byte}

/-- The mode byte of a buffer's mode starts its payload at slot 0 (R79). -/
theorem of_modeByte {sel : Byte} (hsel : decodeMode sel = storeMode b) : AwaitsSlot b 0 (modeByte sel s) :=
  ⟨rfl, hsel, rfl, (Nat.zero_mod _).symm⟩

/-- The bytes of one slot are one store at the next slot. -/
theorem wbytes_slot (h : AwaitsSlot b k s) (hn : bytes.length = slotBytes b) :
    AwaitsSlot b (k + 1) (wbytes bytes s) ∧
      ∃ v, (wbytes bytes s).buf b = storeSlots (bufCap s.cfg b) (k % bufCap s.cfg b) v (s.buf b) := by
  obtain ⟨hh, hm, hv, hc⟩ := h
  have hi : slotIndex b s = k % bufCap s.cfg b := by rw [slotIndex, hc, Nat.mod_mod]
  have hnext : (slotIndex b s + 1) % bufCap s.cfg b = (k + 1) % bufCap s.cfg b := by rw [hi, Nat.mod_add_mod]
  cases b with
  | cmd =>
    obtain ⟨x, rfl⟩ := List.length_eq_one_iff.mp hn
    rw [wbytes_proj hh hm, ← hi]
    refine ⟨⟨by simpa using hh, by simpa using hm, by simpa using hv, ?_⟩, zext16 x, storeCounted_cmd _ _ _⟩
    simpa [storeCounted_cursor] using hnext
  | raw =>
    obtain ⟨x, y, rfl⟩ := List.length_eq_two.mp hn
    rw [wbytes_pair hh hm hv, ← hi]
    refine ⟨⟨by simpa using hh, by simpa using hm, rfl, ?_⟩, bigEndian x y, storeCounted_raw _ _ _⟩
    simpa [storeCounted_cursor, slotIndex] using hnext

/-- The bytes of `n` slots fill `n` slots. -/
theorem wbytes_slots {n : Nat} (h : AwaitsSlot b k s) (hn : bytes.length = n * slotBytes b) :
    AwaitsSlot b (k + n) (wbytes bytes s) := by
  induction n generalizing bytes k s with
  | zero =>
    obtain rfl := List.eq_nil_of_length_eq_zero (hn.trans (Nat.zero_mul _))
    exact h
  | succ n ih =>
    rw [Nat.succ_mul] at hn
    obtain ⟨hslot, -⟩ := h.wbytes_slot (bytes := bytes.take (slotBytes b)) (by rw [List.length_take]; omega)
    have hrest := ih hslot (bytes := bytes.drop (slotBytes b)) (by rw [List.length_drop]; omega)
    rwa [← wbytes_append, List.take_append_drop, Nat.add_right_comm] at hrest

/-- The store into the last slot pre-clears slot 0 (R38). -/
theorem firstSlot_of_full (h : AwaitsSlot b 0 s) (hv : s.cfg.valid) (hwf : Memory.wf s)
    (hn : bytes.length = bufCap s.cfg b * slotBytes b) : ((wbytes bytes s).buf b)[0]? = some 0 := by
  obtain ⟨n, hcap⟩ : ∃ n, bufCap s.cfg b = n + 1 := Nat.exists_eq_add_one.mpr (bufCap_pos hv b)
  rw [hcap, Nat.succ_mul] at hn
  have hlast := h.wbytes_slots (bytes := bytes.take (n * slotBytes b)) (n := n) (by rw [List.length_take]; omega)
  obtain ⟨-, v, hbuf⟩ := hlast.wbytes_slot (bytes := bytes.drop (n * slotBytes b)) (by rw [List.length_drop]; omega)
  have hlen := buf_length (b := b) (memory_wf_wbytes (bytes.take (n * slotBytes b)) s hwf)
  rw [← wbytes_append, List.take_append_drop, wbytes_cfg, hcap, Nat.zero_add, Nat.mod_eq_of_lt n.lt_succ_self] at hbuf
  rw [wbytes_cfg, hcap] at hlen
  rw [hbuf, storeSlots_getElem? _ _ _ _ _ (by omega), if_pos ⟨rfl, rfl⟩]

/-- A write that ends between two slots changes no buffer and no mode at its end (R83). -/
theorem wstop_eq (h : AwaitsSlot b k s) : wstop s = closeTxn s := by
  obtain ⟨hh, -, hv, -⟩ := h
  simp [wstop, wstopEffect, hh, hv]

end AwaitsSlot

/-- A buffer whose slot 0 is 0 has nothing to plan: no count in `CMD`, the sentinel in `RAW` (R105, R106). -/
theorem planOf_of_firstSlot_zero {b : Buf} {s : State} (h : (s.buf b)[0]? = some 0) :
    planOf s.cfg (storeMode b) s.cmd s.raw = [] := by
  cases b with
  | cmd =>
    have hcount : projCount s.cmd = 0 := by
      rw [projCount, List.getD_eq_getElem?_getD, show s.cmd[0]? = some 0 from h]
      rfl
    simp [storeMode, planOf, planProj, projCodes, hcount, interleave]
  | raw =>
    obtain ⟨rest, hraw⟩ : ∃ rest, s.raw = 0 :: rest := List.head?_eq_some_iff.mp (List.head?_eq_getElem?.trans h)
    have hcodes : rawCodes s.cfg s.raw = [] := by
      rw [rawCodes, hraw]
      cases s.cfg.rawCap <;> simp
    rw [storeMode, planOf, planRaw, hcodes]

/-- A payload that fills its buffer exactly leaves nothing to plan (R142, R143). -/
theorem plan_of_full_write {b : Buf} {sel : Byte} {payload : List Byte} {s : State} (h : RunInv s)
    (hc : s.txnOpen = false) (hsel : decodeMode sel = storeMode b)
    (hn : payload.length = bufCap s.cfg b * slotBytes b) :
    ∃ t, busWrite (sel :: payload) s = .next t ∧ planOf t.cfg t.mode t.cmd t.raw = [] := by
  obtain ⟨hv, ⟨hwf, -, -⟩, hh, -, -⟩ := h
  obtain ⟨hidle, -⟩ := rest_of_closed hh hc
  have hstart : AwaitsSlot b 0 (modeByte sel (acknowledge (wstart s))) := .of_modeByte hsel
  have hend := hstart.wbytes_slots hn
  have htxn : writeTransaction (sel :: payload) s =
      closeTxn (wbytes payload (modeByte sel (acknowledge (wstart s)))) := by
    rw [writeTransaction, wbytes_cons_of_idle (s := wstart s) hidle, hend.wstop_eq]
  have hzero : ((writeTransaction (sel :: payload) s).buf b)[0]? = some 0 := by
    rw [htxn]
    exact hstart.firstSlot_of_full hv hwf hn
  refine ⟨_, busWrite_of_closed _ s hc, ?_⟩
  rw [show (writeTransaction (sel :: payload) s).mode = storeMode b by rw [htxn, closeTxn_mode, hend.mode]]
  exact planOf_of_firstSlot_zero hzero

/-! ## A read sees low bytes only -/

/-- A load's low byte is a matter of the buffer's low bytes (R43). -/
theorem lowByte_load (b : Buf) (i : Nat) (s : State) :
    lowByte (load b i s) = ((s.buf b).map lowByte).getD (i % bufCap s.cfg b) (lowByte 0) :=
  (List.getD_map _ _ lowByte).symm

theorem response_of_lowBytes {s : State} {raw : List Slot} (h : raw.map lowByte = s.raw.map lowByte) :
    response { s with raw := raw } = response s := by
  have hb : ∀ b, (State.buf { s with raw := raw } b).map lowByte = (s.buf b).map lowByte := by
    intro b
    cases b
    · rfl
    · exact h
  exact List.map_congr_left fun j _ => by rw [lowByte_load, lowByte_load, hb]

/-- A read of a state that differs in the high bytes of `RAW` has the same effect, and leaves them as it found them. -/
theorem readTransaction_of_lowBytes {s : State} {raw : List Slot} (n : Nat)
    (h : raw.map lowByte = s.raw.map lowByte) :
    readTransaction n { s with raw := raw } = { readTransaction n s with raw := raw } := by
  have hr := response_of_lowBytes h
  have ho : overrunCount n { s with raw := raw } = overrunCount n s := by rw [overrunCount, overrunCount, hr]
  have ha : readAnswer n { s with raw := raw } = readAnswer n s := by rw [readAnswer, readAnswer, hr, ho]
  rw [readTransaction, readTransaction, ha, ho]
  rfl

/-! ## What commutes -/

/-- A write touches nothing the swap waits for (R102). -/
theorem swapEnabled_writeTransaction {s : State} (bytes : List Byte) (h : swapEnabled s = true) :
    swapEnabled (writeTransaction bytes s) = true := by
  obtain ⟨htick, -, hidle⟩ := (swapEnabled_iff s).mp h
  exact (swapEnabled_iff _).mpr ⟨by simpa using htick, rfl, by simpa using hidle⟩

/-- A drain action is as enabled in a state as in any other with the same scheduler (R69, R109). -/
theorem drainEnabled_congr {s t : State} (a : Action) (hs : t.sstate = s.sstate) (hp : t.plan = s.plan) :
    drainEnabled a t = drainEnabled a s := by
  rw [drainEnabled, drainEnabled, hs, hp]

/-- A write and a drain step act on two sides of the state (R55). -/
theorem performHead_writeTransaction (a : Action) (bytes : List Byte) (s : State) :
    performHead a (writeTransaction bytes s) = writeTransaction bytes (performHead a s) := by
  have hside : performHead a s = s.withSchedule (performHead a s) := rfl
  rw [hside, writeTransaction_withSchedule]
  simp [performHead, observe, State.withSchedule]

@[simp] theorem isAction_delivered (b : Byte) : (Obs.delivered b).isAction = false := rfl

@[simp] theorem isAction_actionShown (cfg : Config) (a : Action) : (actionShown cfg a).isAction = true := by
  cases a <;> rfl

/-- The order of a read and a drain step shows in the observation alone (R48, R55). -/
theorem readTransaction_performHead (n : Nat) (a : Action) (s : State) :
    readTransaction n (performHead a s) =
      { performHead a (readTransaction n s) with
        obs := s.obs ++ [actionShown s.cfg a] ++ (readAnswer n s).map .delivered } := rfl

/-! ## The obligations of the family -/

/-- Settles O13, from the slots a store leaves. -/
theorem storeWritesWrapsAndPreclears : Obligations.StoreWritesWrapsAndPreclears :=
  ⟨fun _ => ⟨rfl, rfl, rfl, rfl⟩, fun b v s _ hl =>
    ⟨fun _ => load_store hl, rfl, by rw [store_buf_self, storeSlots_length, hl],
      fun c => store_buf_other b c v s, store_frame b v s⟩⟩

/-- Settles O27: both payloads are as many slots as their buffer has. -/
theorem exactlyFullBufferPlansNothing : Obligations.ExactlyFullBufferPlansNothing := by
  refine fun s payload h hc => ⟨fun hn => ?_, fun hn => ?_⟩
  · exact plan_of_full_write (b := .cmd) h hc rfl (hn.trans (Nat.mul_one _).symm)
  · exact plan_of_full_write (b := .raw) h hc rfl (hn.trans (Nat.mul_comm _ _))

/-- Settles O32: a read delivers low bytes, and takes its cursor from the state without the buffers. -/
theorem rawHighBytesCannotBeRead : Obligations.RawHighBytesCannotBeRead := by
  refine fun s raw n hc h => ⟨_, execRead_of_closed n hc, ?_⟩
  rw [← readTransaction_of_lowBytes n h]
  exact execRead_of_closed n hc

/-- Settles O42: neither of the two can disable the other, and a write leaves the plan alone. -/
theorem swapAndWriteInEitherOrder : Obligations.SwapAndWriteInEitherOrder := by
  intro s i _ he hw
  obtain ⟨bytes, hx⟩ := exec_of_isWrite hw
  obtain ⟨-, hc, -⟩ := (swapEnabled_iff s).mp he
  simp only [hx]
  exact ⟨⟨_, _, busWrite_of_closed bytes s hc, exec_swap_of_enabled (swapEnabled_writeTransaction bytes he), rfl⟩,
    ⟨_, _, exec_swap_of_enabled he, busWrite_of_closed bytes _ hc, writeTransaction_plan bytes _, rfl, rfl⟩⟩

/-- Settles O50: a write and the tick leave the scheduler's plan to the drain, and the drain the bus to the write. -/
theorem drainCommutesWithWritesAndTicks : Obligations.DrainCommutesWithWritesAndTicks := by
  intro s i a t u hi ht hu
  rw [exec_decodeAction] at hu
  simp only [exec_decodeAction]
  obtain ⟨hd, rfl⟩ := drainStep_next a s u hu
  rcases hi with hw | rfl
  · obtain ⟨bytes, hx⟩ := exec_of_isWrite hw
    rw [hx] at ht
    obtain ⟨hc, rfl⟩ := busWrite_next bytes s t ht
    refine ⟨_, drainStep_of_enabled ?_, ?_⟩
    · rwa [drainEnabled_congr a (writeTransaction_sstate bytes s) (writeTransaction_plan bytes s)]
    · rw [hx, performHead_writeTransaction]
      exact busWrite_of_closed bytes _ hc
  · cases ht
    exact ⟨_, drainStep_of_enabled (s := raiseTick s) hd, rfl⟩

/-- Settles O51: the drain adds an action and the read adds bytes, so neither sequence sees the other. -/
theorem drainCommutesWithReads : Obligations.DrainCommutesWithReads := by
  intro s n a t u ht hu
  rw [exec_decodeAction] at hu
  simp only [exec_decodeAction]
  obtain ⟨hd, rfl⟩ := drainStep_next a s u hu
  obtain ⟨hc, rfl⟩ := execRead_next n s t ht
  refine ⟨_, _, drainStep_of_enabled (s := readTransaction n s) hd, execRead_of_closed n hc, rfl, ?_, ?_⟩
  · simp [readTransaction_performHead, State.actions, List.filter_map, Function.comp_def]
  · simp [readTransaction_performHead, List.filter_map, Function.comp_def]

/-- Settles O14, the capacities being positive. -/
theorem loadReadsTheWrappedSlot : Obligations.LoadReadsTheWrappedSlot :=
  fun i _ hv hwf => ⟨getElem?_buf_mod (b := .cmd) (bufCap_pos hv .cmd) (buf_length hwf) i,
    getElem?_buf_mod (b := .raw) (bufCap_pos hv .raw) (buf_length hwf) i⟩

/-- Settles O26: each of the five asks for a closed bus. -/
theorem noTransactionInsideAnother : Obligations.NoTransactionInsideAnother :=
  fun _ ho _ _ n => ⟨busWrite_of_open _ ho, busWrite_of_open _ ho, busWrite_of_open _ ho, busWrite_of_open _ ho,
    execRead_of_open n ho⟩

end Sys2Proof.Machine

/-! # Family `30_encoding.md`: the decoder and its encoder, the opcode table, the step

The write transaction is where decoding has a choice to make. `decodeWrite_cons_cases` says once what it can choose;
that encoding undoes it and which row takes it both go through it. -/

namespace Sys2Proof

/-! ## The mode byte -/

theorem isOtherSelector_iff (b : Byte) : isOtherSelector b = true ↔ b ≠ selectorProj ∧ b ≠ selectorRaw := by
  simp [isOtherSelector, selectorProj, selectorRaw]

/-- Every byte but the two selectors decodes to `NONE` (R68). -/
theorem decodeMode_of_other {b : Byte} (h : isOtherSelector b = true) : decodeMode b = .none := by
  obtain ⟨hp, hr⟩ := (isOtherSelector_iff b).mp h
  rw [decodeMode, if_neg hp, if_neg hr]

theorem decodeWrite_of_other {b : Byte} (payload : List Byte) (h : isOtherSelector b = true) :
    decodeWrite (b :: payload) = .writeOther b payload := by
  rw [decodeWrite, decodeMode_of_other h]

/-- What a write of at least one byte decodes to, by its mode byte (R68, R69). -/
theorem decodeWrite_cons_cases (b : Byte) (payload : List Byte) :
    (b = selectorProj ∧ decodeWrite (b :: payload) = .writeProj payload) ∨
    (b = selectorRaw ∧ decodeWrite (b :: payload) = .writeRaw payload) ∨
    (isOtherSelector b = true ∧ decodeWrite (b :: payload) = .writeOther b payload) := by
  by_cases hp : b = selectorProj
  · exact .inl ⟨hp, by rw [hp]; rfl⟩
  · by_cases hr : b = selectorRaw
    · exact .inr (.inl ⟨hr, by rw [hr]; rfl⟩)
    · have ho := (isOtherSelector_iff b).mpr ⟨hp, hr⟩
      exact .inr (.inr ⟨ho, decodeWrite_of_other payload ho⟩)

/-! ## The decoder and the encoder undo each other -/

theorem decode_encode {cfg : Config} {i : Instr} (h : i.wellFormed cfg = true) : decode (encode i) = i := by
  cases i with
  | writeOther b payload => exact decodeWrite_of_other payload h
  | writeEmpty | writeProj | writeRaw | read | tick | swap | drainEmit1 | drainWait | drainEmit2 => rfl

theorem encode_decodeWrite (bytes : List Byte) : encode (decodeWrite bytes) = .write bytes := by
  cases bytes with
  | nil => rfl
  | cons b payload =>
    obtain ⟨hb, e⟩ | ⟨hb, e⟩ | ⟨-, e⟩ := decodeWrite_cons_cases b payload <;> rw [e]
    · rw [hb, encode]
    · rw [hb, encode]
    · rfl

theorem encode_decode (f : Frame) : encode (decode f) = f := by
  cases f with
  | write bytes => exact encode_decodeWrite bytes
  | drain a => cases a <;> rfl
  | read | timer | swap => rfl

/-! ## Table words -/

/-- The word of some bytes, read byte by byte, gives them back. -/
theorem wordBytes_bytesWord (bytes : List Byte) : wordBytes bytes.length (bytesWord bytes) = bytes := by
  induction bytes with
  | nil => rfl
  | cons b rest ih =>
    have hlow : BitVec.ofNat 8 (b.toNat + 256 * bytesWord rest) = b := by
      apply BitVec.eq_of_toNat_eq
      rw [BitVec.toNat_ofNat]
      omega
    have hrest : (b.toNat + 256 * bytesWord rest) / 256 = bytesWord rest := by omega
    rw [List.length_cons, bytesWord, wordBytes, hlow, hrest, ih]

/-- A table word decodes as the write transaction of its bytes. -/
theorem decodeTableWord_bytesWord (bytes : List Byte) :
    decodeTableWord (8 * bytes.length) (bytesWord bytes) = some (decode (.write bytes)) := by
  rw [decodeTableWord, if_pos (Nat.mul_mod_right 8 _), Nat.mul_div_cancel_left _ (by decide), wordBytes_bytesWord]

/-- Only a write transaction has a table word, that of its bytes. -/
theorem encodeTableWord_eq_some {i : Instr} {n w : Nat} (h : encodeTableWord i = some (n, w)) :
    ∃ bytes, encode i = .write bytes ∧ n = 8 * bytes.length ∧ w = bytesWord bytes := by
  unfold encodeTableWord at h
  cases he : encode i with
  | write bytes =>
    rw [he] at h
    cases h
    exact ⟨bytes, rfl, rfl, rfl⟩
  | read | timer | swap | drain => rw [he] at h; cases h

theorem decodeTableWord_encodeTableWord {cfg : Config} {i : Instr} {n w : Nat} (hwf : i.wellFormed cfg = true)
    (h : encodeTableWord i = some (n, w)) : decodeTableWord n w = some i := by
  obtain ⟨bytes, he, rfl, rfl⟩ := encodeTableWord_eq_some h
  rw [decodeTableWord_bytesWord, ← he, decode_encode hwf]

/-! ## The rows of the opcode table -/

/-- The first row that takes a frame is that of its operation. -/
theorem tableRow_eq (f : Frame) : tableRow f = some (decode f).mnemonic := by
  cases f with
  | write bytes =>
    cases bytes with
    | nil => rfl
    | cons b payload =>
      obtain ⟨hb, e⟩ | ⟨hb, e⟩ | ⟨ho, e⟩ := decodeWrite_cons_cases b payload <;> rw [decode, e]
      · exact hb ▸ Laws.TableRow.writeProj payload Config.provisioned rfl
      · exact hb ▸ Laws.TableRow.writeRaw payload Config.provisioned rfl
      · exact Laws.TableRow.writeOther b payload Config.provisioned ho
  | drain a => cases a <;> rfl
  | read | timer | swap => rfl

/-- The mnemonics of the rows that take a frame, but for `WRITE_OTHER`, whose pattern takes every first byte. -/
def ownRows (f : Frame) : List String :=
  (opcodeTable.filter (fun r => r.selector.takes f && r.mnemonic != "WRITE_OTHER")).map Row.mnemonic

/-- No row of its own takes a write with another first byte than the two selectors. -/
theorem ownRows_of_other {b : Byte} (payload : List Byte) (h : isOtherSelector b = true) :
    ownRows (.write (b :: payload)) = [] := by
  obtain ⟨hp, hr⟩ : b ≠ 0x70#8 ∧ b ≠ 0x72#8 := (isOtherSelector_iff b).mp h
  have hm : b &&& 0xFF#8 = b := BitVec.and_allOnes
  simp [ownRows, opcodeTable, Selector.takes, hm, hp, hr]

theorem ownRows_eq (f : Frame) :
    ownRows f = if (decode f).mnemonic = "WRITE_OTHER" then [] else [(decode f).mnemonic] := by
  cases f with
  | write bytes =>
    cases bytes with
    | nil => rfl
    | cons b payload =>
      obtain ⟨hb, e⟩ | ⟨hb, e⟩ | ⟨ho, e⟩ := decodeWrite_cons_cases b payload <;> rw [decode, e]
      · rw [hb]; rfl
      · rw [hb]; rfl
      · exact ownRows_of_other payload ho
  | drain a => cases a <;> rfl
  | read | timer | swap => rfl

end Sys2Proof

namespace Sys2Proof.Machine

/-! ## What a step fetches -/

/-- It is the block's own turn, with `rest` still to come after it (log 2). -/
abbrev ownTurn (s : State) (rest : List Event) : Prop := s.agenda = .own :: rest ∨ s.agenda = [] ∧ rest = []

section

variable {s : State} {rest : List Event}

theorem advance_of_cons {ev : Event} (h : s.agenda = ev :: rest) : advance s = { s with agenda := rest } := by
  rw [advance, h, List.tail_cons]

theorem advance_of_ownTurn (h : ownTurn s rest) : advance s = { s with agenda := rest } := by
  obtain h | ⟨h, rfl⟩ := h
  · exact advance_of_cons h
  · rw [advance, h, List.tail_nil]

/-- An event from outside that presents a frame is fetched as that frame (R69). -/
theorem fetchFrame_of_event {ev : Event} {f : Frame} (h : s.agenda = ev :: rest)
    (hf : ev.frame s.cfg.busAddr = some f) : fetchFrame s = some f := by
  rw [fetchFrame, h]
  cases ev with
  | own => cases hf
  | busWrite | busRead | wstart | wbyte | wstop | timer | reset => exact hf

theorem step_of_event {ev : Event} {f : Frame} (h : s.agenda = ev :: rest)
    (hf : ev.frame s.cfg.busAddr = some f) : step s = exec (decode f) { s with agenda := rest } := by
  rw [step_of_fetch s f (fetchFrame_of_event h hf), advance_of_cons h]

theorem fetchFrame_of_ownTurn (h : ownTurn s rest) : fetchFrame s = ownFrame s := by
  obtain h | ⟨h, -⟩ := h <;> simp only [fetchFrame, h]

theorem step_of_ownFrame {f : Frame} (h : ownTurn s rest) (hf : ownFrame s = some f) :
    step s = exec (decode f) { s with agenda := rest } := by
  rw [step_of_fetch s f ((fetchFrame_of_ownTurn h).trans hf), advance_of_ownTurn h]

theorem ownFrame_of_swapEnabled (h : swapEnabled s = true) : ownFrame s = some .swap := if_pos h

/-- The swap waits for a drain in progress (R102), so the drain has the turn. -/
theorem ownFrame_of_drain {a : Action} {more : List Action} (hs : s.sstate = .drain) (hp : s.plan = a :: more) :
    ownFrame s = some (.drain a) := by
  have hno : swapEnabled s = false := by simp [swapEnabled, hs]
  simp [ownFrame, hno, hs, hp]

theorem ownFrame_of_rest (hno : swapEnabled s = false) (hs : s.sstate = .idle) : ownFrame s = none := by
  simp [ownFrame, hno, hs]

/-- A turn of the block with nothing enabled only passes. -/
theorem step_of_rest (h : ownTurn s rest) (hf : ownFrame s = none) : step s = .next { s with agenda := rest } := by
  rw [step_of_none s ((fetchFrame_of_ownTurn h).trans hf), ← advance_of_ownTurn h]
  obtain h | ⟨h, -⟩ := h <;> simp only [portStep, h]

end

/-! ## The obligations of the family -/

/-- Settles O9: the mode byte keeps the three kinds of write apart, and a word keeps its bytes. -/
theorem decodeUndoesEncode : Obligations.DecodeUndoesEncode :=
  ⟨fun _ _ => decode_encode, encode_decode, fun _ _ _ _ => decodeTableWord_encodeTableWord⟩

/-- Settles O4: an order of events that can come is all a step needs. -/
theorem stepNeverStops : Obligations.StepNeverStops := by
  intro s h
  obtain ⟨-, ha⟩ := (runInv_iff_blockInv s).mp h
  exact step_completes ha

/-- Settles O10, by the frame and, for a write, its mode byte. -/
theorem everyFrameIsExactlyOneRow : Obligations.EveryFrameIsExactlyOneRow := fun f => ⟨tableRow_eq f, ownRows_eq f⟩

/-- Settles O8: the decoder is run on each. -/
theorem writtenOutFramesDecode : Obligations.WrittenOutFramesDecode := by
  unfold Obligations.WrittenOutFramesDecode
  decide

/-- Settles O11: each case says which frame is fetched. -/
theorem stepRunsTheDecodedOperation : Obligations.StepRunsTheDecodedOperation := by
  refine fun s rest => ⟨fun bytes h => ?_, fun n h => ?_, fun h => ?_, fun h he => ?_, fun a more h hs hp => ?_,
    fun h hno hs => ?_⟩
  · exact step_of_event h (if_pos rfl)
  · exact step_of_event h (if_pos rfl)
  · exact step_of_event h rfl
  · exact step_of_ownFrame h (ownFrame_of_swapEnabled he)
  · exact step_of_ownFrame h (ownFrame_of_drain hs hp)
  · exact step_of_rest h (ownFrame_of_rest hno hs)

end Sys2Proof.Machine

/-! # Family `40_bus_write.md`: the port's events, and whole writes in closed form

`portStep` is read once per port event (`step_of_wstart` and the lemmas beside it). A whole write is followed through
`storeAll`, the stores of a payload one after the other: `storeAll_eq_setBuf` and `load_storeAll` say what they leave,
and `wbytes_of_proj` and `wbytes_of_raw` that a payload is just its stores, but for the latch and the
acknowledgements. -/

namespace Sys2Proof.Machine

/-! ## What a step does with a port event -/

section

variable {s : State} {rest : List Event}

/-- An event that presents no frame is fetched as none (R49, R92). -/
theorem fetchFrame_of_noFrame {ev : Event} (h : s.agenda = ev :: rest) (hown : ev ≠ .own)
    (hf : ev.frame s.cfg.busAddr = none) : fetchFrame s = none := by
  rw [fetchFrame, h]
  cases ev with
  | own => exact absurd rfl hown
  | busWrite | busRead | wstart | wbyte | wstop | timer | reset => exact hf

/-- An event with no frame is a port event of the step, whatever it is. -/
theorem step_of_noFrame {ev : Event} (h : s.agenda = ev :: rest) (hown : ev ≠ .own)
    (hf : ev.frame s.cfg.busAddr = none) : step s = portStep s :=
  step_of_none s (fetchFrame_of_noFrame h hown hf)

/-- A transaction to another address is taken and not seen (R92). -/
theorem step_of_otherWrite {addr : Nat} {bytes : List Byte} (h : s.agenda = .busWrite addr bytes :: rest)
    (hne : addr ≠ s.cfg.busAddr) : step s = .next { s with agenda := rest } := by
  rw [step_of_noFrame h nofun (if_neg hne), ← advance_of_cons h]
  simp only [portStep, h]

theorem step_of_otherRead {addr n : Nat} (h : s.agenda = .busRead addr n :: rest)
    (hne : addr ≠ s.cfg.busAddr) : step s = .next { s with agenda := rest } := by
  rw [step_of_noFrame h nofun (if_neg hne), ← advance_of_cons h]
  simp only [portStep, h]

/-- `WSTART` comes where no write is open (R78). -/
theorem step_of_wstart (h : s.agenda = .wstart :: rest) (hc : s.txnOpen = false) :
    step s = .next (wstart { s with agenda := rest }) := by
  rw [step_of_noFrame h nofun rfl, ← advance_of_cons h]
  simp [portStep, h, hc]

/-- A byte comes inside a write (R60). -/
theorem step_of_wbyte {b : Byte} (h : s.agenda = .wbyte b :: rest) (ho : s.txnOpen = true) :
    step s = .next (wbyte b { s with agenda := rest }) := by
  rw [step_of_noFrame h nofun rfl, ← advance_of_cons h]
  simp [portStep, h, ho]

/-- `WSTOP` comes inside a write (R60, R83). -/
theorem step_of_wstop (h : s.agenda = .wstop :: rest) (ho : s.txnOpen = true) :
    step s = .next (wstop { s with agenda := rest }) := by
  rw [step_of_noFrame h nofun rfl, ← advance_of_cons h]
  simp [portStep, h, ho]

theorem step_of_wstart_open (h : s.agenda = .wstart :: rest) (ho : s.txnOpen = true) :
    step s = .refused .portOrder := by
  rw [step_of_noFrame h nofun rfl]
  simp [portStep, h, ho]

theorem step_of_wbyte_closed {b : Byte} (h : s.agenda = .wbyte b :: rest) (hc : s.txnOpen = false) :
    step s = .refused .portOrder := by
  rw [step_of_noFrame h nofun rfl]
  simp [portStep, h, hc]

theorem step_of_wstop_closed (h : s.agenda = .wstop :: rest) (hc : s.txnOpen = false) :
    step s = .refused .portOrder := by
  rw [step_of_noFrame h nofun rfl]
  simp [portStep, h, hc]

end

/-! ## What one byte and the end of a write do, by the handler's state -/

section

variable {b : Byte} {s : State}

theorem wbyte_of_idle (hh : s.hstate = .idle) : wbyte b s = modeByte b (acknowledge s) := by
  simp [wbyte, hh]

theorem wbyte_of_proj (hh : s.hstate = .awaitingPayload) (hm : s.mode = .proj) :
    wbyte b s = storeCounted .cmd (zext16 b) (acknowledge s) :=
  wbytes_proj hh hm

theorem wbyte_of_latchEmpty (hh : s.hstate = .awaitingPayload) (hm : s.mode = .raw) (hv : s.hiValid = false) :
    wbyte b s = { acknowledge s with hi := b, hiValid := true } := by
  simp [wbyte, hh, payloadByte, hm, rawByte, hv]

theorem wbyte_of_latchFull (hh : s.hstate = .awaitingPayload) (hm : s.mode = .raw) (hv : s.hiValid = true) :
    wbyte b s = { storeCounted .raw (bigEndian s.hi b) (acknowledge s) with hiValid := false } := by
  simp [wbyte, hh, payloadByte, hm, rawByte, hv]

theorem wbyte_of_noMode (hh : s.hstate = .awaitingPayload) (hm : s.mode = .none) :
    wbyte b s = absorb .unrecognizedMode (acknowledge s) := by
  simp [wbyte, hh, payloadByte, hm]

theorem wstop_of_idle (hh : s.hstate = .idle) : wstop s = closeTxn (absorb .zeroLength s) := by
  simp [wstop, wstopEffect, hh]

theorem wstop_of_even (hh : s.hstate = .awaitingPayload) (hn : ¬ (s.mode = .raw ∧ s.hiValid = true)) :
    wstop s = closeTxn s := by
  simp [wstop, wstopEffect, hh, hn]

section

variable (hh : s.hstate = .awaitingPayload) (hm : s.mode = .raw) (hv : s.hiValid = true)

include hh hm hv

theorem wstop_of_drop (hp : s.cfg.oddPolicy = .drop) : wstop s = closeTxn (absorb .oddLength s) := by
  simp [wstop, wstopEffect, hh, hm, hv, oddByte, hp]

theorem wstop_of_pad (hp : s.cfg.oddPolicy = .pad) :
    wstop s = closeTxn (storeCounted .raw (bigEndian s.hi 0x00) (absorb .oddLength s)) := by
  simp [wstop, wstopEffect, hh, hm, hv, oddByte, hp]

theorem wstop_of_reject (hp : s.cfg.oddPolicy = .reject) :
    wstop s = closeTxn { absorb .oddLength s with mode := .none } := by
  simp [wstop, wstopEffect, hh, hm, hv, oddByte, hp]

end

end

/-- A counted store is a store in the state with the overrun's label, where the cursor is at the last slot (R80, R81,
R85). -/
theorem storeCounted_eq_store (b : Buf) (v : Slot) (s : State) :
    storeCounted b v s = store b v { s with
      absorbed := s.absorbed ++
        if s.cursor % bufCap s.cfg b = bufCap s.cfg b - 1 then [.bufferOverrun] else [] } := by
  by_cases h : s.cursor % bufCap s.cfg b = bufCap s.cfg b - 1
  · simp [storeCounted, storeWraps, slotIndex, h, absorb]
  · simp [storeCounted, storeWraps, slotIndex, h]

/-! ## Byte by byte, or all at once -/

/-- A byte acts alike whatever is still to come. -/
theorem wbyte_withAgenda (b : Byte) (s : State) (evs : List Event) :
    wbyte b { s with agenda := evs } = { wbyte b s with agenda := evs } := by
  simpa [State.withSchedule] using wbyte_withSchedule b s { s with agenda := evs }

/-- The bytes and the end of an open write, delivered one by one (R60, R87). -/
theorem run_wbytes_wstop {bytes : List Byte} {rest : List Event} {s : State} (ho : s.txnOpen = true)
    (h : s.agenda = bytes.map .wbyte ++ .wstop :: rest) :
    core.run (bytes.length + 1) s = .next (wstop (wbytes bytes { s with agenda := rest })) := by
  induction bytes generalizing s with
  | nil => exact run_succ 0 _ _ (step_of_wstop h ho)
  | cons b bytes ih =>
    have hb := run_succ (bytes.length + 1) _ _ (step_of_wbyte h ho)
    refine hb.trans ((ih (by simpa using ho) (by simp)).trans ?_)
    rw [← wbyte_withAgenda]
    rfl

/-- A write's port events, delivered one by one, are the whole write (R87). -/
theorem run_portEvents {bytes : List Byte} {rest : List Event} {s : State} (hc : s.txnOpen = false)
    (h : s.agenda = portEvents bytes ++ rest) :
    core.run (bytes.length + 2) s = .next (writeTransaction bytes { s with agenda := rest }) := by
  have ha : s.agenda = .wstart :: (bytes.map .wbyte ++ .wstop :: rest) := by simpa [portEvents] using h
  exact (run_succ _ _ _ (step_of_wstart ha hc)).trans (run_wbytes_wstop rfl rfl)

/-! ## Acknowledgements -/

@[simp] theorem wbyte_acks (b : Byte) (s : State) : (wbyte b s).acks = s.acks ++ [.ack] := by
  obtain ⟨-, e⟩ | ⟨-, -, e⟩ | ⟨-, -, -, e⟩ | ⟨-, -, -, e⟩ | ⟨-, -, e⟩ := wbyte_cases b s <;> rw [e] <;> simp

@[simp] theorem wbytes_acks (bytes : List Byte) (s : State) :
    (wbytes bytes s).acks = s.acks ++ List.replicate bytes.length .ack := by
  induction bytes generalizing s with
  | nil => exact (List.append_nil _).symm
  | cons b rest ih =>
    refine (ih (wbyte b s)).trans ?_
    rw [wbyte_acks, List.append_assoc]
    rfl

@[simp] theorem wstop_acks (s : State) : (wstop s).acks = s.acks := by
  show (wstopEffect s).acks = s.acks
  obtain ⟨-, e⟩ | ⟨-, -, e⟩ | ⟨-, -, -, e⟩ | ⟨-, -, -, e⟩ | ⟨-, -, -, e⟩ := wstopEffect_cases s <;> rw [e] <;> simp

/-- A whole write adds one acknowledgement for the address and one for every byte (R93). -/
theorem writeTransaction_acks (bytes : List Byte) (s : State) :
    (writeTransaction bytes s).acks = s.acks ++ List.replicate (bytes.length + 1) .ack := by
  rw [writeTransaction, wstop_acks, wbytes_acks, wstart_acks, List.append_assoc]
  rfl

theorem exec_acks {i : Instr} {s t : State} (h : exec i s = .next t) :
    ∃ k, t.acks = s.acks ++ List.replicate k .ack := by
  obtain ⟨bytes, -, -, rfl⟩ | ⟨n, -, -, rfl⟩ | ⟨-, rfl⟩ | ⟨-, -, rfl⟩ | ⟨a, -, -, rfl⟩ := exec_cases i s t h
  · exact ⟨_, writeTransaction_acks bytes s⟩
  · exact ⟨1, rfl⟩
  · exact ⟨0, (List.append_nil _).symm⟩
  · exact ⟨0, (List.append_nil _).symm⟩
  · exact ⟨0, (List.append_nil _).symm⟩

theorem portStep_acks {s t : State} (h : portStep s = .next t) :
    ∃ k, t.acks = s.acks ++ List.replicate k .ack := by
  obtain ⟨_, -, -, rfl⟩ | ⟨b, _, -, -, rfl⟩ | ⟨_, -, -, rfl⟩ | ⟨_, -, rfl⟩ | rfl := portStep_cases s t h
  · exact ⟨1, rfl⟩
  · exact ⟨1, wbyte_acks b _⟩
  · exact ⟨0, by simp⟩
  · exact ⟨0, (List.append_nil _).symm⟩
  · exact ⟨0, (List.append_nil _).symm⟩

end Sys2Proof.Machine

/-! ## The slots after a payload's stores, in the closed form of R87 -/

namespace Sys2Proof.Spec

/-- One more store is the last one at its own index. -/
theorem lastStored_append_singleton (us : List Slot) (v : Slot) (cap i : Nat) :
    lastStored (us ++ [v]) cap i = if us.length % cap = i then some v else lastStored us cap i := by
  unfold lastStored
  rw [List.length_append, List.length_singleton, List.range_succ, List.filter_append]
  by_cases h : us.length % cap = i
  · simp [h]
  · have hold : ∀ k ∈ ((List.range us.length).filter (fun k => k % cap == i)).getLast?, (us ++ [v])[k]? = us[k]? := by
      intro k hk
      have hmem := List.mem_of_getLast? hk
      exact List.getElem?_append_left (List.mem_range.mp (List.mem_filter.mp hmem).1)
    simpa [h] using Option.bind_congr hold

theorem succ_mod_eq_zero_iff {n cap : Nat} (hcap : 0 < cap) : (n + 1) % cap = 0 ↔ n % cap = cap - 1 := by
  obtain ⟨c, rfl⟩ := Nat.exists_eq_add_one.mpr hcap
  exact Nat.succ_mod_succ_eq_zero_iff

/-- One more store is one more wrap where it comes to the last slot. -/
theorem replicate_wraps_succ {α : Type} {n cap : Nat} (hcap : 0 < cap) (x : α) :
    List.replicate (n / cap) x ++ (if n % cap = cap - 1 then [x] else []) = List.replicate ((n + 1) / cap) x := by
  simp only [Nat.succ_div, Nat.dvd_iff_mod_eq_zero, succ_mod_eq_zero_iff hcap]
  split
  · exact List.replicate_succ'.symm
  · exact List.append_nil _

/-- What one more store does to a slot: it writes its own, and pre-clears slot 0 at the wrap boundary (R38). -/
theorem slotAfter_append_singleton {cap : Nat} (hcap : 2 ≤ cap) (us : List Slot) (v old : Slot) (i : Nat) :
    slotAfter (us ++ [v]) cap old i =
      if i = 0 ∧ us.length % cap = cap - 1 then 0 else if i = us.length % cap then v else slotAfter us cap old i := by
  have hwrap : (us ++ [v]).length % cap = 0 ↔ us.length % cap = cap - 1 := by
    rw [List.length_append, List.length_singleton, succ_mod_eq_zero_iff (by omega)]
  have hne : us ++ [v] ≠ [] := by simp
  rw [slotAfter, lastStored_append_singleton]
  simp only [hwrap]
  by_cases hw : i = 0 ∧ us.length % cap = cap - 1
  · rw [if_pos ⟨hw.1, hne, hw.2⟩, if_pos hw]
  · have hnew : ¬ (i = 0 ∧ us ++ [v] ≠ [] ∧ us.length % cap = cap - 1) := fun h => hw ⟨h.1, h.2.2⟩
    rw [if_neg hnew, if_neg hw]
    by_cases hi : i = us.length % cap
    · rw [if_pos hi.symm, if_pos hi, Option.getD_some]
    · have hold : ¬ (i = 0 ∧ us ≠ [] ∧ us.length % cap = 0) := fun h => hi (h.1.trans h.2.2.symm)
      rw [if_neg (Ne.symm hi), if_neg hi, slotAfter, if_neg hold]

end Sys2Proof.Spec

namespace Sys2Proof.Machine

/-! ## The stores of a payload -/

/-- Counted stores, one after the other. -/
def storeAll (b : Buf) (us : List Slot) (s : State) : State := us.foldl (fun t v => storeCounted b v t) s

theorem storeAll_append_singleton (b : Buf) (us : List Slot) (v : Slot) (s : State) :
    storeAll b (us ++ [v]) s = storeCounted b v (storeAll b us s) := by
  rw [storeAll, List.foldl_append]
  rfl

@[simp] theorem storeAll_cfg (b : Buf) (us : List Slot) (s : State) : (storeAll b us s).cfg = s.cfg := by
  induction us using List.reverseRecOn with
  | nil => rfl
  | append_singleton us v ih => rw [storeAll_append_singleton, storeCounted_cfg, ih]

@[simp] theorem storeAll_mode (b : Buf) (us : List Slot) (s : State) : (storeAll b us s).mode = s.mode := by
  induction us using List.reverseRecOn with
  | nil => rfl
  | append_singleton us v ih => rw [storeAll_append_singleton, storeCounted_mode, ih]

@[simp] theorem storeAll_hstate (b : Buf) (us : List Slot) (s : State) : (storeAll b us s).hstate = s.hstate := by
  induction us using List.reverseRecOn with
  | nil => rfl
  | append_singleton us v ih => rw [storeAll_append_singleton, storeCounted_hstate, ih]

theorem memory_wf_storeAll (b : Buf) (us : List Slot) {s : State} (h : Memory.wf s) :
    Memory.wf (storeAll b us s) := by
  induction us using List.reverseRecOn with
  | nil => exact h
  | append_singleton us v ih =>
    rw [storeAll_append_singleton]
    exact memory_wf_storeCounted b v _ ih

/-- A counted store writes a buffer, the cursor and the labels, and nothing else. -/
theorem storeCounted_eq_setBuf (b : Buf) (v : Slot) (s : State) : storeCounted b v s =
    { s.setBuf b ((storeCounted b v s).buf b) with
      cursor := (s.cursor + 1) % bufCap s.cfg b
      absorbed := s.absorbed ++ if s.cursor % bufCap s.cfg b = bufCap s.cfg b - 1 then [.bufferOverrun] else [] } := by
  rw [← Nat.mod_add_mod, storeCounted_eq_store]
  cases b <;> rfl

/-- The stores from cursor 0 on write one buffer and change nothing else but the cursor, which wraps, and the labels,
one for each wrap. -/
theorem storeAll_eq_setBuf (b : Buf) (us : List Slot) {s : State} (hv : s.cfg.valid) (hc : s.cursor = 0) :
    storeAll b us s = { s.setBuf b ((storeAll b us s).buf b) with
      cursor := us.length % bufCap s.cfg b
      absorbed := s.absorbed ++ List.replicate (us.length / bufCap s.cfg b) .bufferOverrun } := by
  induction us using List.reverseRecOn with
  | nil => cases b <;> ext1 <;> simp [storeAll, State.setBuf, hc]
  | append_singleton us v ih =>
    rw [storeAll_append_singleton, storeCounted_eq_setBuf]
    generalize (storeCounted b v (storeAll b us s)).buf b = slots
    rw [ih, List.length_append, List.length_singleton, ← Spec.replicate_wraps_succ (bufCap_pos hv b)]
    cases b <;> simp [State.setBuf]

theorem storeAll_cursor (b : Buf) (us : List Slot) {s : State} (hv : s.cfg.valid) (hc : s.cursor = 0) :
    (storeAll b us s).cursor = us.length % bufCap s.cfg b := by
  rw [storeAll_eq_setBuf b us hv hc]

theorem two_le_bufCap {cfg : Config} (hv : cfg.valid) (b : Buf) : 2 ≤ bufCap cfg b := by
  obtain ⟨hcmd, hraw, -⟩ := hv
  cases b
  · exact hcmd
  · exact hraw

/-- Each slot after the stores from cursor 0 on is in the closed form of R87. -/
theorem load_storeAll (b : Buf) (us : List Slot) {s : State} {i : Nat} (hv : s.cfg.valid) (hwf : Memory.wf s)
    (hc : s.cursor = 0) (hi : i < bufCap s.cfg b) :
    load b i (storeAll b us s) = Spec.slotAfter us (bufCap s.cfg b) (load b i s) i := by
  induction us using List.reverseRecOn with
  | nil => simp [storeAll, Spec.slotAfter, Spec.lastStored]
  | append_singleton us v ih =>
    have hlen := buf_length (b := b) (memory_wf_storeAll b us hwf)
    have hidx : slotIndex b (storeAll b us s) = us.length % bufCap s.cfg b := by
      rw [slotIndex, storeAll_cursor b us hv hc, storeAll_cfg, Nat.mod_mod]
    have hcount : load b i (storeCounted b v (storeAll b us s)) = load b i (store b v (storeAll b us s)) := by
      simp only [load, storeCounted_buf, storeCounted_cfg, store_cfg]
    rw [storeAll_append_singleton, hcount, load_store hlen (by rwa [storeAll_cfg]), hidx, storeAll_cfg, ih,
      Spec.slotAfter_append_singleton (two_le_bufCap hv b)]

/-! ## A payload is its stores -/

/-- The state with another latch and other acknowledgements: nothing a store reads or writes. -/
def State.withLatch (s : State) (hi : Byte) (hiValid : Bool) (acks : List BusReply) : State :=
  { s with hi := hi, hiValid := hiValid, acks := acks }

@[simp] theorem withLatch_hstate (s : State) (hi : Byte) (v : Bool) (acks : List BusReply) :
    (s.withLatch hi v acks).hstate = s.hstate := rfl
@[simp] theorem withLatch_mode (s : State) (hi : Byte) (v : Bool) (acks : List BusReply) :
    (s.withLatch hi v acks).mode = s.mode := rfl

theorem storeCounted_withLatch (b : Buf) (u : Slot) (s : State) (hi : Byte) (v : Bool) (acks : List BusReply) :
    storeCounted b u (s.withLatch hi v acks) = (storeCounted b u s).withLatch hi v acks := by
  rw [storeCounted_eq_store, storeCounted_eq_store]
  cases b <;> rfl

theorem storeAll_withLatch (b : Buf) (us : List Slot) (s : State) (hi : Byte) (v : Bool) (acks : List BusReply) :
    storeAll b us (s.withLatch hi v acks) = (storeAll b us s).withLatch hi v acks := by
  induction us using List.reverseRecOn with
  | nil => rfl
  | append_singleton us u ih => rw [storeAll_append_singleton, storeAll_append_singleton, ih, storeCounted_withLatch]

/-- A projector payload is the stores of its widened bytes (R80). -/
theorem wbytes_of_proj {bytes : List Byte} {s : State} (hh : s.hstate = .awaitingPayload) (hm : s.mode = .proj) :
    wbytes bytes s = (storeAll .cmd (bytes.map zext16) s).withLatch s.hi s.hiValid
      (s.acks ++ List.replicate bytes.length .ack) := by
  induction bytes generalizing s with
  | nil => simp [wbytes, storeAll, State.withLatch]
  | cons b rest ih =>
    have hack : acknowledge s = s.withLatch s.hi s.hiValid (s.acks ++ [.ack]) := rfl
    show wbytes rest (wbyte b s) = _
    rw [wbyte_of_proj hh hm, hack, storeCounted_withLatch, ih (by simpa using hh) (by simpa using hm),
      storeAll_withLatch]
    simp [State.withLatch, storeAll, List.replicate_succ]

/-- What the latch holds after a raw-ir payload: the last first byte of a pair, or what it held (R81, log 12). -/
def latchAfter (old : Byte) : List Byte → Byte
  | a :: _ :: rest => latchAfter a rest
  | [a] => a
  | [] => old

theorem latchAfter_eq (old : Byte) (payload : List Byte) :
    latchAfter old payload = (payload[2 * ((payload.length - 1) / 2)]?).getD old := by
  induction old, payload using latchAfter.induct with
  | case1 old a b rest ih =>
    rw [latchAfter, ih]
    cases rest with
    | nil => simp
    | cons c rest =>
      have hlast : 2 * (((a :: b :: c :: rest).length - 1) / 2) = 2 * (((c :: rest).length - 1) / 2) + 2 := by
        simp only [List.length_cons]; omega
      have hin : 2 * (((c :: rest).length - 1) / 2) < (c :: rest).length := by simp only [List.length_cons]; omega
      rw [hlast, List.getElem?_cons_succ, List.getElem?_cons_succ, List.getElem?_eq_getElem hin, Option.getD_some,
        Option.getD_some]
  | case2 old a => simp [latchAfter]
  | case3 old => rfl

/-- An unpaired last byte is what the latch holds. -/
theorem latchAfter_of_odd {old : Byte} {payload : List Byte} (h : payload.length % 2 = 1) :
    latchAfter old payload = payload.getLastD 0 := by
  have hlast : 2 * ((payload.length - 1) / 2) = payload.length - 1 := by omega
  have hin : payload.length - 1 < payload.length := by omega
  rw [latchAfter_eq, hlast, List.getLastD_eq_getLast?, List.getLast?_eq_getElem?, List.getElem?_eq_getElem hin,
    Option.getD_some, Option.getD_some]

/-- A raw-ir payload is the stores of its pairs, an unpaired last byte left in the latch (R81). -/
theorem wbytes_of_raw {bytes : List Byte} {s : State} (hh : s.hstate = .awaitingPayload) (hm : s.mode = .raw)
    (hv : s.hiValid = false) :
    wbytes bytes s = (storeAll .raw (Spec.pairCodes bytes) s).withLatch (latchAfter s.hi bytes)
      (bytes.length % 2 == 1) (s.acks ++ List.replicate bytes.length .ack) := by
  induction bytes using Spec.pairCodes.induct generalizing s with
  | case1 x y rest ih =>
    have hpair : wbytes [x, y] s =
        (storeCounted .raw (bigEndian x y) s).withLatch x false (s.acks ++ [.ack, .ack]) := by
      have hlatched : acknowledge { acknowledge s with hi := x, hiValid := true } =
          s.withLatch x true (s.acks ++ [.ack, .ack]) := by simp [acknowledge, State.withLatch]
      rw [wbytes_pair hh hm hv, hlatched, storeCounted_withLatch]
      rfl
    have hparity : ((x :: y :: rest).length % 2 == 1) = (rest.length % 2 == 1) :=
      congrArg (· == 1) (Nat.add_mod_right rest.length 2)
    show wbytes rest (wbytes [x, y] s) = _
    rw [hpair, ih (by simpa using hh) (by simpa using hm) rfl, storeAll_withLatch, hparity]
    simp [State.withLatch, Spec.pairCodes, storeAll, latchAfter, List.replicate_succ]
  | case2 x =>
    show wbyte x s = _
    rw [wbyte_of_latchEmpty hh hm hv]
    rfl
  | case3 => simp [wbytes, storeAll, State.withLatch, latchAfter, Spec.pairCodes, ← hv]

/-! ## Whole writes -/

theorem writeTransaction_nil {s : State} (hh : s.hstate = .idle) :
    writeTransaction [] s = closeTxn (absorb .zeroLength (wstart s)) :=
  wstop_of_idle hh

/-- The block once the mode byte of a write is taken. -/
def afterModeByte (sel : Byte) (s : State) : State := modeByte sel (acknowledge (wstart s))

/-- A write of at least one byte is its mode byte, then its payload (R79, R87). -/
theorem writeTransaction_cons {sel : Byte} {payload : List Byte} {s : State} (hh : s.hstate = .idle) :
    writeTransaction (sel :: payload) s = wstop (wbytes payload (afterModeByte sel s)) := by
  rw [writeTransaction, wbytes_cons_of_idle (s := wstart s) hh, afterModeByte]

/-- With no mode every payload byte is discarded (R82, R123). -/
theorem wbytes_noMode {bytes : List Byte} {s : State} (hh : s.hstate = .awaitingPayload) (hm : s.mode = .none) :
    wbytes bytes s = { s with
      absorbed := s.absorbed ++ List.replicate bytes.length .unrecognizedMode
      acks := s.acks ++ List.replicate bytes.length .ack } := by
  induction bytes generalizing s with
  | nil => simp [wbytes]
  | cons b rest ih =>
    show wbytes rest (wbyte b s) = _
    rw [wbyte_of_noMode hh hm, ih (s := absorb .unrecognizedMode (acknowledge s)) hh hm]
    simp [absorb, acknowledge, List.replicate_succ]

theorem pairCodes_length (payload : List Byte) : (Spec.pairCodes payload).length = payload.length / 2 := by
  induction payload using Spec.pairCodes.induct with
  | case1 a b rest ih => simp only [Spec.pairCodes, List.length_cons, ih]; omega
  | case2 a => simp [Spec.pairCodes]
  | case3 => rfl

/-- A projector write is the stores of its widened payload (R87, R89). -/
theorem writeTransaction_proj {payload : List Byte} {s : State} (h : RunInv s) (hc : s.txnOpen = false) :
    writeTransaction (selectorProj :: payload) s = { s with
      mode := .proj, cursor := payload.length % s.cfg.cmdCap,
      cmd := (storeAll .cmd (payload.map zext16) (afterModeByte selectorProj s)).cmd,
      absorbed := s.absorbed ++ List.replicate (payload.length / s.cfg.cmdCap) .bufferOverrun,
      acks := s.acks ++ List.replicate (payload.length + 2) .ack } := by
  obtain ⟨hv, -, hh, -, -⟩ := h
  obtain ⟨hidle, hlatch⟩ := rest_of_closed hh hc
  rw [writeTransaction_cons hidle, wbytes_of_proj (s := afterModeByte selectorProj s) rfl rfl,
    wstop_of_even (storeAll_hstate _ _ _) (fun h => Bool.false_ne_true h.2),
    storeAll_eq_setBuf .cmd (payload.map zext16) (s := afterModeByte selectorProj s) hv rfl]
  ext1 <;> simp [State.withLatch, afterModeByte, decodeMode, bufCap, List.replicate_succ, hidle, hlatch, hc]

/-- The end of a raw-ir write (R83 to R86): an unpaired byte is absorbed, and by the policy stored as one more code, or
the mode is given up. -/
theorem wstop_of_raw {s : State} (hh : s.hstate = .awaitingPayload) (hm : s.mode = .raw) :
    wstop s = closeTxn {
      if s.hiValid = true ∧ s.cfg.oddPolicy = .pad then store .raw (bigEndian s.hi 0x00) s else s with
      mode := if s.hiValid = true ∧ s.cfg.oddPolicy = .reject then .none else .raw
      absorbed := s.absorbed ++ (if s.hiValid = true then [.oddLength] else []) ++
        (if s.hiValid = true ∧ s.cfg.oddPolicy = .pad ∧ s.cursor % bufCap s.cfg .raw = bufCap s.cfg .raw - 1
          then [.bufferOverrun] else []) } := by
  cases hv : s.hiValid with
  | false => simp [wstop_of_even hh (by simp [hv]), ← hm]
  | true =>
    cases hp : s.cfg.oddPolicy with
    | drop => simp [wstop_of_drop hh hm hv hp, absorb, ← hm]
    | pad =>
      simp [wstop_of_pad hh hm hv hp, storeCounted_eq_store, store, State.setBuf, closeTxn, absorb, slotIndex, ← hm]
    | reject => simp [wstop_of_reject hh hm hv hp, absorb]

/-- The stores of a raw-ir write are its pairs', and under `PAD` that of the unpaired byte in the latch (R85). -/
theorem storeAll_rawStores (p : OddPolicy) (payload : List Byte) (s : State) :
    storeAll .raw (Spec.rawStores p payload) s =
      if payload.length % 2 = 1 ∧ p = .pad
      then storeCounted .raw (bigEndian (latchAfter s.hi payload) 0x00) (storeAll .raw (Spec.pairCodes payload) s)
      else storeAll .raw (Spec.pairCodes payload) s := by
  unfold Spec.rawStores
  split
  next h => rw [storeAll_append_singleton, latchAfter_of_odd h.1]
  next => rw [List.append_nil]

/-- A raw-ir write is the stores of its payload under the policy (R87, R90). -/
theorem writeTransaction_raw {payload : List Byte} {s : State} (h : RunInv s) (hc : s.txnOpen = false) :
    writeTransaction (selectorRaw :: payload) s = { s with
      mode := if payload.length % 2 = 1 ∧ s.cfg.oddPolicy = .reject then .none else .raw,
      cursor := (Spec.rawStores s.cfg.oddPolicy payload).length % s.cfg.rawCap,
      raw := (storeAll .raw (Spec.rawStores s.cfg.oddPolicy payload) (afterModeByte selectorRaw s)).raw,
      hi := latchAfter s.hi payload,
      absorbed := s.absorbed ++ List.replicate (payload.length / 2 / s.cfg.rawCap) .bufferOverrun ++
        (if payload.length % 2 = 1 then [.oddLength] else []) ++
        (if payload.length % 2 = 1 ∧ s.cfg.oddPolicy = .pad ∧
            payload.length / 2 % s.cfg.rawCap = s.cfg.rawCap - 1 then [.bufferOverrun] else []),
      acks := s.acks ++ List.replicate (payload.length + 2) .ack } := by
  obtain ⟨hv, -, hh, -, -⟩ := h
  obtain ⟨hidle, hlatch⟩ := rest_of_closed hh hc
  rw [writeTransaction_cons hidle, wbytes_of_raw (s := afterModeByte selectorRaw s) rfl rfl rfl,
    wstop_of_raw (storeAll_hstate _ _ _) (storeAll_mode _ _ _), storeAll_rawStores,
    storeAll_eq_setBuf .raw (Spec.pairCodes payload) (s := afterModeByte selectorRaw s) hv rfl]
  by_cases hpad : payload.length % 2 = 1 ∧ s.cfg.oddPolicy = .pad
  · ext1 <;> simp [State.withLatch, afterModeByte, decodeMode, bufCap, List.replicate_succ, hidle, hlatch, hc,
      Spec.rawStores, pairCodes_length, hpad, storeCounted_raw, slotIndex]
  · ext1 <;> simp [State.withLatch, afterModeByte, decodeMode, bufCap, List.replicate_succ, hidle, hlatch, hc,
      Spec.rawStores, pairCodes_length, hpad]

/-- Whatever else a write does, its stores leave its buffer in the closed form of R87. -/
theorem slots_of_stores {b : Buf} {us : List Slot} {sel : Byte} {s t : State} (h : RunInv s) (hcfg : t.cfg = s.cfg)
    (hbuf : t.buf b = (storeAll b us (afterModeByte sel s)).buf b) :
    (t.buf b).length = bufCap s.cfg b ∧
      ∀ i, i < bufCap s.cfg b → load b i t = Spec.slotAfter us (bufCap s.cfg b) (load b i s) i := by
  obtain ⟨hv, ⟨hwf, -, -⟩, -⟩ := h
  have hlen := buf_length (b := b) (memory_wf_storeAll b us (s := afterModeByte sel s) hwf)
  rw [storeAll_cfg] at hlen
  refine ⟨hbuf ▸ hlen, fun i hi => ?_⟩
  have hload := load_storeAll b us (s := afterModeByte sel s) hv hwf rfl hi
  simp only [load, storeAll_cfg, ← hbuf] at hload
  rw [load, hcfg]
  exact hload

/-! ## The obligations of the family -/

/-- Settles O20, by what the handler awaits and, for an unpaired raw byte, by the policy. -/
theorem stopClosesAndAppliesTheOddPolicy : Obligations.StopClosesAndAppliesTheOddPolicy := by
  intro s rest h ho
  rw [step_of_wstop h ho]
  refine ⟨fun hh => congrArg _ ?_, fun hh hn => congrArg _ (wstop_of_even hh hn), fun hh hm hv =>
    ⟨fun hp => congrArg _ (wstop_of_drop hh hm hv hp), fun hp => congrArg _ ?_,
      fun hp => congrArg _ (wstop_of_reject hh hm hv hp)⟩⟩
  · simpa [closeTxn, absorb, hh] using wstop_of_idle (s := { s with agenda := rest }) hh
  · rw [wstop_of_pad (s := { s with agenda := rest }) hh hm hv hp, storeCounted_eq_store]
    rfl

/-- Settles O21, from the run of a write's port events. -/
theorem byteStepsMakeTheWholeWrite : Obligations.ByteStepsMakeTheWholeWrite :=
  fun s bytes rest hc => ⟨_, run_portEvents hc rfl,
    (exec_decodeWrite bytes _).trans (busWrite_of_closed bytes { s with agenda := rest } hc)⟩

/-- Settles O23: the payload is its stores, and these have the closed form. -/
theorem projectorWriteClosedForm : Obligations.ProjectorWriteClosedForm :=
  fun _ => ⟨rfl, fun s h hc => ⟨_, (busWrite_of_closed _ s hc).trans (congrArg _ (writeTransaction_proj h hc)),
    rfl, slots_of_stores (b := .cmd) h rfl rfl⟩⟩

/-- Settles O24, as O23, the policy's store among the payload's. -/
theorem rawWriteClosedForm : Obligations.RawWriteClosedForm := by
  refine fun payload => ⟨rfl, fun s h hc => ?_⟩
  rw [← latchAfter_eq]
  exact ⟨_, (busWrite_of_closed _ s hc).trans (congrArg _ (writeTransaction_raw h hc)), rfl,
    slots_of_stores (b := .raw) h rfl rfl⟩

/-- Settles O25: the mode byte gives `NONE`, and every payload byte is discarded. -/
theorem otherWriteSetsNoModeAndStoresNothing : Obligations.OtherWriteSetsNoModeAndStoresNothing := by
  refine fun sel payload hp hr => ⟨rfl, fun s h hc => (busWrite_of_closed _ s hc).trans (congrArg _ ?_)⟩
  obtain ⟨-, -, hh, -⟩ := h
  obtain ⟨hidle, hlatch⟩ := rest_of_closed hh hc
  have hm : decodeMode sel = .none := decodeMode_of_other ((isOtherSelector_iff sel).mpr ⟨hp, hr⟩)
  rw [writeTransaction_cons hidle, wbytes_noMode rfl hm, wstop_of_even rfl (fun h => Bool.false_ne_true h.2)]
  simp [closeTxn, afterModeByte, modeByte, wstart, acknowledge, hm, hidle, hlatch, hc, List.replicate_succ]

/-- Settles O28, by the operation or the port event a step is. -/
theorem blockNeverNacks : Obligations.BlockNeverNacks := by
  refine ⟨fun s t h => ?_, fun s bytes hc => ⟨_, ?_, writeTransaction_acks bytes s⟩⟩
  · obtain ⟨f, -, hx⟩ | ⟨-, hp⟩ := step_cases s t h
    · simpa using exec_acks hx
    · exact portStep_acks hp
  · rw [exec_decodeWrite]
    exact busWrite_of_closed bytes s hc

/-- Settles O12: such an event presents no frame, and is only taken. -/
theorem otherAddressesAreInvisible : Obligations.OtherAddressesAreInvisible :=
  fun _ _ _ hne => ⟨fun _ h => step_of_otherWrite h hne, fun _ h => step_of_otherRead h hne⟩

/-- Settles O15, by whether a write is open. -/
theorem startOpensTheTransaction : Obligations.StartOpensTheTransaction := by
  refine fun s rest h => ⟨fun hc => ⟨_, step_of_wstart h hc, rfl⟩, fun ho t => ?_⟩
  rw [step_of_wstart_open h ho]
  exact nofun

/-- Settles O16: between transactions the handler takes a byte as the mode byte. -/
theorem firstByteIsTheModeByte : Obligations.FirstByteIsTheModeByte :=
  fun _ _ _ h ho hh => ⟨_, (step_of_wbyte h ho).trans (congrArg _ (wbyte_of_idle hh)), rfl⟩

/-- Settles O17: the byte is one counted store into `CMD`. -/
theorem projectorByteIsStoredWidened : Obligations.ProjectorByteIsStoredWidened := by
  refine fun s rest b h ho hh hm => ⟨_, (step_of_wbyte h ho).trans (congrArg _ (wbyte_of_proj hh hm)), ?_⟩
  rw [storeCounted_eq_store]
  rfl

/-- Settles O18, by whether the latch holds a byte. -/
theorem rawBytesArePairedBigEndian : Obligations.RawBytesArePairedBigEndian := by
  refine fun s rest b h ho hh hm => ⟨fun hv => ?_, fun hv => ?_⟩
  · exact ⟨_, (step_of_wbyte h ho).trans (congrArg _ (wbyte_of_latchEmpty hh hm hv)), rfl⟩
  · refine ⟨_, (step_of_wbyte h ho).trans (congrArg _ (wbyte_of_latchFull hh hm hv)), ?_⟩
    rw [storeCounted_eq_store]
    rfl

/-- Settles O19: the byte is absorbed. -/
theorem payloadWithoutModeIsDiscarded : Obligations.PayloadWithoutModeIsDiscarded :=
  fun _ _ _ h ho hh hm => ⟨_, (step_of_wbyte h ho).trans (congrArg _ (wbyte_of_noMode hh hm)), rfl⟩

/-- Settles O22: the latch a write would empty is empty already. -/
theorem emptyWriteIsANoOp : Obligations.EmptyWriteIsANoOp := by
  refine ⟨rfl, fun s h hc => ⟨_, busWrite_of_closed [] s hc, ?_⟩⟩
  obtain ⟨-, -, hh, -⟩ := h
  obtain ⟨hidle, hlatch⟩ := rest_of_closed hh hc
  rw [writeTransaction_nil hidle]
  simp [closeTxn, absorb, wstart, acknowledge, hidle, hlatch, hc]

/-- Settles O56, one port event after the other. -/
theorem portEventsOutOfOrderAreRefused : Obligations.PortEventsOutOfOrderAreRefused :=
  fun _ _ => ⟨step_of_wstart_open, fun _ => step_of_wbyte_closed, step_of_wstop_closed⟩

end Sys2Proof.Machine

/-! # Family `41_bus_read.md`: what a read delivers, and where reads leave the cursor

A read's answer is read off at an index: within the response it is a low byte of the active buffer
(`getElem?_response`), beyond it a free value (`readAnswer_beyond`). -/

namespace Sys2Proof.Machine

/-! ## The active buffer -/

theorem activeBuf_eq_ite (m : Mode) : activeBuf m = if m = .raw then .raw else .cmd := by
  cases m <;> rfl

theorem modeCap_eq_ite (cfg : Config) (m : Mode) : modeCap cfg m = if m = .raw then cfg.rawCap else cfg.cmdCap := by
  cases m <;> rfl

/-! ## The bytes a read delivers -/

theorem lowByte_eq_setWidth (v : Slot) : lowByte v = v.setWidth 8 :=
  (BitVec.setWidth_eq_extractLsb' (by decide)).symm

section

variable {s : State} {n k : Nat}

/-- The response runs from the wrapped cursor to the end of the active buffer (R95). -/
theorem getElem?_response (h : k < (response s).length) :
    (response s)[k]? = some (lowByte (load (activeBuf s.mode) (slotIndex (activeBuf s.mode) s + k) s)) := by
  rw [response_length] at h
  simp [response, List.getElem?_range' h]

/-- As far as the response goes, the answer is the response (R95). -/
theorem readAnswer_within (hn : k < n) (h : k < (response s).length) :
    (readAnswer n s)[k]? = (response s)[k]? := by
  rw [readAnswer, List.getElem?_append_left (by rw [List.length_take]; omega), List.getElem?_take_of_lt hn]

/-- Beyond the response, each byte is the next free value (R98). -/
theorem readAnswer_beyond (hn : k < n) (h : (response s).length ≤ k) :
    (readAnswer n s)[k]? = some (Config.readOverrun (s.draws + (k - (response s).length))) := by
  have htake : (response s).take n = response s := List.take_of_length_le (by omega)
  have hk : k - (response s).length < overrunCount n s := by rw [overrunCount]; omega
  rw [readAnswer, htake, List.getElem?_append_right h, List.getElem?_map, List.getElem?_range hk, Option.map_some]

end

/-! ## Reads one after the other -/

section

variable {s : State} {n : Nat} {rest : List Event}

/-- A read of the block, with no write open, is one step (R51, R95). -/
theorem step_of_busRead (h : s.agenda = .busRead s.cfg.busAddr n :: rest) (hc : s.txnOpen = false) :
    step s = .next (readTransaction n { s with agenda := rest }) :=
  (step_of_event h (if_pos rfl)).trans (execRead_of_closed n hc)

/-- Each read moves the cursor one slot round the active buffer and leaves mode and buffers as they are (R99, R100). -/
theorem run_reads {ns : List Nat} (hc : s.txnOpen = false) (hlt : s.cursor < modeCap s.cfg s.mode)
    (h : s.agenda = ns.map (.busRead s.cfg.busAddr) ++ rest) :
    ∃ t : State, core.run ns.length s = .next t ∧ t.cursor = (s.cursor + ns.length) % modeCap s.cfg s.mode ∧
      t.agenda = rest ∧ t.mode = s.mode ∧ t.cmd = s.cmd ∧ t.raw = s.raw := by
  induction ns generalizing s with
  | nil => exact ⟨s, run_zero s, (Nat.mod_eq_of_lt hlt).symm, h, rfl, rfl, rfl⟩
  | cons n ns ih =>
    have hcursor : readCursor s = (s.cursor + 1) % modeCap s.cfg s.mode := Nat.mod_add_mod ..
    have hlt' : readCursor s < modeCap s.cfg s.mode := Nat.mod_lt _ (by omega)
    obtain ⟨t, hrun, hcur, hframe⟩ :=
      ih (s := readTransaction n { s with agenda := ns.map (.busRead s.cfg.busAddr) ++ rest }) hc hlt' rfl
    refine ⟨t, (run_succ _ _ _ (step_of_busRead h hc)).trans hrun, ?_, hframe⟩
    calc t.cursor = (readCursor s + ns.length) % modeCap s.cfg s.mode := hcur
      _ = (s.cursor + (n :: ns).length) % modeCap s.cfg s.mode := by
        rw [hcursor, Nat.mod_add_mod, List.length_cons, Nat.add_assoc, Nat.add_comm 1]

end

/-! ## The obligations of the family -/

/-- Settles O30: the answer is the response, then free values. -/
theorem readStreamsTheActiveBufferAndMovesTheCursor : Obligations.ReadStreamsTheActiveBufferAndMovesTheCursor := by
  intro s n _ hc b cap start hb hcap hstart
  rw [← activeBuf_eq_ite] at hb
  rw [← modeCap_eq_ite] at hcap
  subst hb hcap hstart
  have hlen : (response s).length = modeCap s.cfg s.mode - s.cursor % modeCap s.cfg s.mode := response_length s
  rw [← hlen]
  refine ⟨readAnswer n s, readAnswer_length n s, fun k hn hk => ?_, fun k => readAnswer_beyond,
    execRead_of_closed n hc⟩
  rw [readAnswer_within hn hk, getElem?_response hk, lowByte_eq_setWidth]
  rfl

/-- Settles O31, by one read after the other. -/
theorem cursorAfterConsecutiveReads : Obligations.CursorAfterConsecutiveReads :=
  fun _ _ _ _ hc hlt h => run_reads hc hlt h

end Sys2Proof.Machine

/-! # Family `42_scheduler.md`: the plan of a swap, its drain, and a block with no write to come

`projLoop_eq` reads the loop of R105 as the plan's list of codes, and `interleave` is looked at place by place. A step
with no write to come is one of six (`step_cases_of_noWrite`); of these only the drain performs an action, so the plan
is followed apart from the rest of `quietInv`, by `PlanProgress`. -/

namespace Sys2Proof.Machine

/-! ## What the scheduler's operations leave of the sequences of R16 -/

@[simp] theorem actions_performHead (a : Action) (s : State) :
    (performHead a s).actions = s.actions ++ [actionShown s.cfg a] := by
  simp [State.actions]

/-- A read delivers bytes and performs nothing. -/
@[simp] theorem actions_readTransaction (n : Nat) (s : State) : (readTransaction n s).actions = s.actions := by
  simp [State.actions, List.filter_map, Function.comp_def]

/-! ## The drain -/

/-- A drain operation where its action heads the plan of a drain in progress (R109). -/
theorem exec_of_planHead {s : State} {a : Action} {more : List Action} (hs : s.sstate = .drain)
    (hp : s.plan = a :: more) :
    exec (decodeAction a) s = .next { s with
      plan := more, sstate := sstateFor more, obs := s.obs ++ [actionShown s.cfg a] } := by
  rw [exec_decodeAction, drainStep_of_enabled ((drainEnabled_iff a s).mpr ⟨hs, more, hp⟩), performHead, hp]
  rfl

/-- The block's own turns perform a plan in its order, one action a step (R109, R113). -/
theorem run_drain {p : List Action} {s : State} (hp : s.plan = p) (hs : s.sstate = sstateFor p)
    (ha : s.agenda = []) :
    core.run p.length s = .next { s with
      plan := [], sstate := .idle, obs := s.obs ++ p.map (actionShown s.cfg) } := by
  induction p generalizing s with
  | nil =>
    show Host.Outcome.next s = _
    rw [List.map_nil, List.append_nil, ← hp, ← show s.sstate = .idle from hs]
    rfl
  | cons a more ih =>
    have hstep : step s = .next { s with
        plan := more, sstate := sstateFor more, agenda := [], obs := s.obs ++ [actionShown s.cfg a] } :=
      (step_of_ownFrame (.inr ⟨ha, rfl⟩) (ownFrame_of_drain hs hp)).trans
        (exec_of_planHead (s := { s with agenda := [] }) hs hp)
    rw [List.length_cons, run_succ _ _ _ hstep, ih rfl rfl rfl, ← ha, List.append_assoc]
    rfl

/-! ## The plan of a projector swap -/

/-- The loop of R105 from slot `k` on finds what the table has for the codes up to the first zero code, and counts the
others. -/
theorem projLoop_eq (cfg : Config) (cmd : List Slot) (left k : Nat) {codes : List Byte}
    (h : codes = (((cmd.drop k).take left).map lowByte).takeWhile (· != 0)) :
    Spec.projLoop cfg cmd left k =
      (codes.filterMap (lookup cfg), (codes.filter (fun c => (lookup cfg c).isNone)).length) := by
  induction left generalizing k codes with
  | zero => simp [h, Spec.projLoop]
  | succ left ih =>
    rw [Spec.projLoop]
    rcases Nat.lt_or_ge k cmd.length with hk | hk
    · rw [List.drop_eq_getElem_cons hk, List.take_succ_cons, List.map_cons] at h
      rw [List.getD_eq_getElem _ _ hk]
      by_cases hz : lowByte cmd[k] = 0
      · simp [h, hz]
      · rw [List.takeWhile_cons_of_pos (by simpa using hz)] at h
        rw [if_neg hz, ih (k + 1) rfl, h]
        cases hw : lookup cfg (lowByte cmd[k]) <;> simp [show Spec.lut cfg = lookup cfg from rfl, hw]
    · have hz : lowByte (cmd.getD k 0) = 0 := by rw [List.getD_eq_default _ _ hk]; decide
      rw [if_pos hz, h, List.drop_eq_nil_of_le hk]
      simp

theorem projScan_eq (s : State) :
    Spec.projScan s = ((projCodes s.cfg s.cmd).filterMap (lookup s.cfg), (projUnmapped s.cfg s.cmd).length) :=
  projLoop_eq s.cfg s.cmd _ 1 rfl

/-- The plan of a projector swap interleaves what the loop of R105 finds. -/
theorem swapState_plan_of_proj {s : State} (hm : s.mode = .proj) :
    (swapState s).plan = interleave s.cfg.interCmdDelay (Spec.projScan s).1 := by
  rw [swapState_plan, hm, planOf, planProj, projScan_eq]

/-- Emission `i` stands at place `2 * i`. -/
theorem interleave_getElem?_even {d : Duration} {ws : List WaveformId} {i : Nat} {w : WaveformId}
    (h : ws[i]? = some w) : (interleave d ws)[2 * i]? = some (.emitCH1 w) := by
  induction ws using interleave.induct generalizing i with
  | case1 => cases h
  | case2 v =>
    cases i with
    | zero => simpa [interleave] using h
    | succ i => cases h
  | case3 v v' rest ih =>
    cases i with
    | zero => simpa [interleave] using h
    | succ i => exact ih h

/-- The wait after emission `i`, where another comes after it, stands at place `2 * i + 1`. -/
theorem interleave_getElem?_odd (d : Duration) {ws : List WaveformId} {i : Nat} (h : i + 1 < ws.length) :
    (interleave d ws)[2 * i + 1]? = some (.wait d) := by
  induction ws using interleave.induct generalizing i with
  | case1 => cases h
  | case2 v => simp at h
  | case3 v v' rest ih =>
    cases i with
    | zero => rfl
    | succ i => exact ih (Nat.lt_of_succ_lt_succ h)

theorem filter_emits_interleave (d : Duration) (ws : List WaveformId) :
    (interleave d ws).filter emits = ws.map .emitCH1 := by
  induction ws using interleave.induct with
  | case1 => rfl
  | case2 w => rfl
  | case3 w w' rest ih =>
    rw [interleave, List.filter_cons_of_pos rfl, List.filter_cons_of_neg Bool.false_ne_true, ih]
    rfl

theorem filter_waits_interleave (d : Duration) (ws : List WaveformId) :
    (interleave d ws).filter waits = List.replicate (ws.length - 1) (.wait d) := by
  induction ws using interleave.induct with
  | case1 => rfl
  | case2 w => rfl
  | case3 w w' rest ih =>
    rw [interleave, List.filter_cons_of_neg Bool.false_ne_true, List.filter_cons_of_pos rfl, ih]
    rfl

/-- The bound of R115 on a projector plan. -/
theorem planProj_counts_le (cfg : Config) (cmd : List Slot) :
    ((planProj cfg cmd).filter emits).length ≤ cfg.cmdCap - 1 ∧
      ((planProj cfg cmd).filter waits).length ≤ cfg.cmdCap - 2 := by
  have hcodes := projCodes_length_le cfg cmd
  have hmapped := List.length_filterMap_le (lookup cfg) (projCodes cfg cmd)
  rw [planProj, filter_emits_interleave, filter_waits_interleave, List.length_map, List.length_replicate]
  omega

/-! ## The plan of a raw swap -/

/-- In a buffer of its capacity, the raw codes of R106 are the slots before the least zero slot. -/
theorem rawCodes_eq_take {cfg : Config} {raw : List Slot} (h : raw.length = cfg.rawCap) :
    rawCodes cfg raw = raw.take (raw.findIdx (· == 0)) := by
  rw [rawCodes, ← h, List.take_length, List.takeWhile_eq_take_findIdx_not]
  simp only [bne, Bool.not_not]

theorem rawCodes_length_le (cfg : Config) (raw : List Slot) : (rawCodes cfg raw).length ≤ cfg.rawCap :=
  (List.takeWhile_sublist _).length_le.trans (List.length_take_le _ _)

/-- The plan of R106, by the number of codes before the sentinel. -/
theorem planRaw_eq_ite {cfg : Config} {raw : List Slot} (h : raw.length = cfg.rawCap) :
    planRaw cfg raw = if raw.findIdx (· == 0) = 0 then []
      else [.emitCH2 (raw.take (raw.findIdx (· == 0))) cfg.carrierFreq] := by
  have hcodes := rawCodes_eq_take h
  have hempty : rawCodes cfg raw = [] ↔ raw.findIdx (· == 0) = 0 := by
    rw [hcodes, List.take_eq_nil_iff, or_iff_left_of_imp]
    rintro rfl
    rfl
  rw [planRaw]
  split
  next hc => rw [if_pos (hempty.mp hc)]
  next c rest hc => rw [if_neg (hempty.not.mp (by simp [hc])), ← hcodes, hc]

/-- In buffers of their capacities a load within the capacity reads the slot of its index (R39). -/
theorem load_eq_getElem {b : Buf} {s : State} {j : Nat} (hwf : Memory.wf s) (hj : j < (s.buf b).length) :
    load b j s = (s.buf b)[j] := by
  rw [load_of_lt b j s (buf_length hwf ▸ hj), List.getD_eq_getElem _ _ hj]

/-! ## The swap -/

/-- In mode `NONE` there is nothing to plan and nothing to absorb (R107). -/
theorem swapState_of_noMode {s : State} (hm : s.mode = .none) (hs : s.sstate = .idle) :
    swapState s = { s with
      plan := [], cmd := List.replicate s.cfg.cmdCap 0, raw := List.replicate s.cfg.rawCap 0,
      tickPending := false } := by
  rw [swapState, hm]
  simp [planOf, planUnmapped, sstateFor, hs]

theorem load_cmd_swapState (i : Nat) (s : State) : load .cmd i (swapState s) = 0 :=
  List.getElem?_getD_replicate_default_eq _ _ _

/-- In mode `NONE` a read delivers the low bytes of `CMD`: after a swap, zeros as far as the response goes (R151). -/
theorem response_swapState (s : State) :
    response (swapState s) = List.replicate (s.cfg.cmdCap - s.cursor % s.cfg.cmdCap) 0 := by
  refine List.eq_replicate_iff.mpr ⟨response_length _, fun b hb => ?_⟩
  obtain ⟨j, -, rfl⟩ := List.mem_map.mp hb
  rw [swapState_mode, activeBuf, load_cmd_swapState]
  decide

/-! ## A step with no write to come -/

/-- Everything a step can do where no write to the block is listed (R116): a read, the tick, the block's own swap or
drain, a reset, or no more than taking its event. -/
theorem step_cases_of_noWrite {s t : State} (hw : ∀ ev ∈ s.agenda, isNoWrite s.cfg.busAddr ev = true)
    (h : step s = .next t) :
    (∃ n, t = readTransaction n (advance s)) ∨ t = raiseTick (advance s) ∨
    (swapEnabled s = true ∧ t = swapState (advance s)) ∨
    (∃ a, drainEnabled a s = true ∧ t = performHead a (advance s)) ∨
    t = resetState (advance s) ∨ t = advance s := by
  have hhead : ∀ {ev rest}, s.agenda = ev :: rest → isNoWrite s.cfg.busAddr ev = true :=
    fun ha => hw _ (ha ▸ List.mem_cons_self)
  obtain ⟨f, hf, hx⟩ | ⟨-, hp⟩ := step_cases s t h
  · obtain ⟨bytes, _, ha, rfl⟩ | ⟨n, _, -, rfl⟩ | ⟨_, -, rfl⟩ | ⟨-, ⟨rfl, hs⟩ | ⟨a, rfl, hd⟩⟩ := fetchFrame_cases hf
    · simpa [isNoWrite] using hhead ha
    · exact .inl ⟨n, (execRead_next n _ t hx).2⟩
    · cases hx
      exact .inr (.inl rfl)
    · exact .inr (.inr (.inl ⟨hs, (execSwap_next _ t hx).2⟩))
    · exact .inr (.inr (.inr (.inl ⟨a, hd, (drainStep_next a _ t ((exec_decodeAction a _).symm.trans hx)).2⟩)))
  · obtain ⟨_, ha, -, -⟩ | ⟨_, _, ha, -, -⟩ | ⟨_, ha, -, -⟩ | ⟨_, -, e⟩ | e := portStep_cases s t hp
    · cases hhead ha
    · cases hhead ha
    · cases hhead ha
    · exact .inr (.inr (.inr (.inr (.inl e))))
    · exact .inr (.inr (.inr (.inr (.inr e))))

/-- Where no write to the block is listed, no event opens one. -/
theorem openAfter_of_noWrite {busAddr : Nat} {evs : List Event} (h : ∀ ev ∈ evs, isNoWrite busAddr ev = true) :
    openAfter false evs = false := by
  cases evs with
  | nil => rfl
  | cons ev rest =>
    cases ev with
    | wstart => cases h _ List.mem_cons_self
    | busWrite | busRead | wbyte | wstop | timer | own | reset => rfl

/-- The clause of `quietInv` on the plan: the actions performed since `before` are the first ones of `plan`, and the
rest of it is still to be performed or was abandoned. -/
abbrev PlanProgress (plan : List Action) (before : List Obs) (s : State) : Prop :=
  ∃ m : Nat, (s.plan = plan.drop m ∨ s.plan = []) ∧ s.actions = before ++ (plan.take m).map (actionShown s.cfg)

namespace PlanProgress

variable {plan : List Action} {before : List Obs} {s t : State}

/-- Progress is kept where nothing is performed and the plan is kept or abandoned. -/
theorem of_noAction (h : PlanProgress plan before s) (hcfg : t.cfg = s.cfg) (ha : t.actions = s.actions)
    (hp : t.plan = s.plan ∨ t.plan = []) : PlanProgress plan before t := by
  obtain ⟨m, hrest, hacts⟩ := h
  refine ⟨m, ?_, by rw [ha, hcfg, hacts]⟩
  obtain hp | hp := hp
  · rwa [hp]
  · exact .inr hp

/-- A drain step performs the next action of the plan. -/
theorem performHead {a : Action} (h : PlanProgress plan before s) (hd : drainEnabled a s = true) :
    PlanProgress plan before (performHead a s) := by
  obtain ⟨-, more, hp⟩ := (drainEnabled_iff a s).mp hd
  obtain ⟨m, hrest, hacts⟩ := h
  obtain hrest | hrest := hrest
  · have hget : plan[m]? = some a := by rw [← List.head?_drop, ← hrest, hp, List.head?_cons]
    refine ⟨m + 1, .inl (by rw [performHead_plan, hrest, List.tail_drop]), ?_⟩
    rw [actions_performHead, hacts, performHead_cfg, List.take_add_one, hget]
    simp
  · rw [hp] at hrest
    cases hrest

end PlanProgress

/-- With no write to come, a step leaves the mode `NONE` and makes no other progress than that of the plan (R116). -/
theorem progress_of_step {plan : List Action} {before : List Obs} {s t : State} (hm : s.mode = .none)
    (hw : ∀ ev ∈ s.agenda, isNoWrite s.cfg.busAddr ev = true) (hst : step s = .next t)
    (h : PlanProgress plan before s) : t.mode = .none ∧ PlanProgress plan before t := by
  obtain ⟨n, rfl⟩ | rfl | ⟨-, rfl⟩ | ⟨a, hd, rfl⟩ | rfl | rfl := step_cases_of_noWrite hw hst
  · exact ⟨hm, h.of_noAction rfl (actions_readTransaction n (advance s)) (.inl rfl)⟩
  · exact ⟨hm, h⟩
  · refine ⟨rfl, h.of_noAction rfl rfl (.inr ?_)⟩
    rw [swapState_plan, advance_mode, hm, planOf]
  · exact ⟨hm, PlanProgress.performHead (s := advance s) h hd⟩
  · exact ⟨rfl, h.of_noAction rfl rfl (.inr rfl)⟩
  · exact ⟨hm, h⟩

theorem quietInv_of_step {plan : List Action} {before : List Obs} {s t : State} (h : quietInv plan before s)
    (hst : step s = .next t) : quietInv plan before t := by
  obtain ⟨hrun, hm, hc, hw, hp⟩ := h
  obtain ⟨hm', hp'⟩ := progress_of_step hm hw hst hp
  refine ⟨runInv_of_step hrun hst, hm', ?_, ?_, hp'⟩
  · rw [step_txnOpen hst, hc, openAfter_of_noWrite hw]
  · rw [step_agenda hst, step_cfg hst]
    exact fun ev hev => hw ev (List.mem_of_mem_tail hev)

/-- Right after a swap the actions performed are those before, and all of its plan is still to come (R103, R116). -/
theorem quietInv_of_swap {s t : State} (h : RunInv s) (hx : exec .swap s = .next t)
    (hw : ∀ ev ∈ t.agenda, isNoWrite t.cfg.busAddr ev = true) : quietInv t.plan t.actions t := by
  obtain ⟨he, rfl⟩ := execSwap_next s t hx
  obtain ⟨-, hc, -⟩ := (swapEnabled_iff s).mp he
  obtain ⟨hb, ha⟩ := (runInv_iff_blockInv s).mp h
  exact ⟨(runInv_iff_blockInv _).mpr ⟨hb.swapState he, ha⟩, rfl, hc, hw, 0, .inl rfl, (List.append_nil _).symm⟩

/-- What every step keeps, a run keeps. -/
theorem run_preserves {P : State → Prop} (hP : ∀ s t, P s → step s = .next t → P t) {k : Nat} {s t : State}
    (h : P s) (hrun : core.run k s = .next t) : P t := by
  induction k generalizing s with
  | zero => cases hrun; exact h
  | succ k ih =>
    cases hs : step s with
    | next u => exact ih (hP s u h hs) ((run_succ k s u hs).symm.trans hrun)
    | fault r => exact r.rec
    | refused r =>
      rw [run_refused k s r hs] at hrun
      cases hrun

/-! ## The obligations of the family -/

/-- Settles O57: only the drain performs anything, and what it performs is the head of the plan. -/
theorem everyStepKeepsTheQuietInvariant : Obligations.EveryStepKeepsTheQuietInvariant :=
  fun _ _ _ _ => quietInv_of_step

/-- Settles O37: the loop's codes are the plan's, and those it cannot map are absorbed. -/
theorem projectorPlanIsTheSpecLoop : Obligations.ProjectorPlanIsTheSpecLoop := by
  refine ⟨fun cfg => ⟨rfl, fun c hc => if_neg hc⟩, fun s _ he hm =>
    ⟨_, exec_swap_of_enabled he, swapState_plan_of_proj hm, ?_⟩⟩
  rw [swapState_absorbed, hm, planUnmapped, List.map_const', projScan_eq]

/-- Settles O38, from the places of an interleaving. -/
theorem waitsStandOnlyBetweenEmissions : Obligations.WaitsStandOnlyBetweenEmissions := by
  intro s _ he hm
  refine ⟨_, exec_swap_of_enabled he, ?_⟩
  rw [swapState_plan_of_proj hm]
  exact ⟨interleave_length _ _, fun _ _ => interleave_getElem?_even, fun _ => interleave_getElem?_odd _⟩

/-- Settles O39: the sentinel stands at the first index of a zero slot. -/
theorem rawPlanIsTheCodesBeforeTheSentinel : Obligations.RawPlanIsTheCodesBeforeTheSentinel := by
  rintro s ⟨-, ⟨hwf, -⟩, -⟩ he hm
  have hlen : s.raw.length = s.cfg.rawCap := hwf.2
  have hle : s.raw.findIdx (· == 0) ≤ s.cfg.rawCap := hlen ▸ List.findIdx_le_length
  refine ⟨_, s.raw.findIdx (· == 0), exec_swap_of_enabled he, hle, fun j hj => ?_, fun hlt => ?_, ?_, ?_⟩
  · rw [load_eq_getElem (b := .raw) hwf (hj.trans_le List.findIdx_le_length)]
    exact ne_of_beq_false (List.not_of_lt_findIdx hj)
  · rw [← hlen] at hlt
    rw [load_eq_getElem (b := .raw) hwf hlt]
    exact eq_of_beq (List.findIdx_getElem (w := hlt))
  · simp [hm, planUnmapped]
  · rw [swapState_plan, hm, planOf, planRaw_eq_ite hlen]

/-- Settles O41: the bound of a plan is the invariant's, its kinds are counted in the interleaving and the burst. -/
theorem planOfOneTickIsBounded : Obligations.PlanOfOneTickIsBounded := by
  intro s h he
  obtain ⟨hb, -⟩ := (runInv_iff_blockInv s).mp h
  obtain ⟨-, -, hlen, -⟩ := (hb.swapState he).plan
  refine ⟨_, exec_swap_of_enabled he, hlen, fun hm => ?_, fun hm => ?_⟩ <;> rw [swapState_plan, hm, planOf]
  · exact planProj_counts_le s.cfg s.cmd
  · exact (planRaw_cases s.cfg s.raw).imp_right fun ⟨hne, e⟩ =>
      ⟨_, e, List.length_pos_iff.mpr hne, rawCodes_length_le s.cfg s.raw⟩

/-- Settles O33: the swap clears the mode, so the read is one of the cleared `CMD`. -/
theorem readsAfterASwapSeeZeros : Obligations.ReadsAfterASwapSeeZeros := by
  intro s n _ he
  obtain ⟨-, hc, -⟩ := (swapEnabled_iff s).mp he
  refine ⟨_, _, readAnswer n (swapState s), exec_swap_of_enabled he, execRead_of_closed n hc, rfl,
    readAnswer_length n _, fun k hn hk => ?_⟩
  rw [readAnswer_within hn, response_swapState, List.getElem?_replicate_of_lt hk]
  rwa [response_swapState, List.length_replicate]

/-- Settles O49: a drain in progress has its plan, and the run performs it. -/
theorem drainPerformsThePlanInOrder : Obligations.DrainPerformsThePlanInOrder := by
  rintro s ⟨-, -, -, ⟨hdrain, -⟩, -⟩ hs ha
  exact run_drain rfl (hs.trans ((sstateFor_eq_drain_iff _).mpr (hdrain.mp hs)).symm) ha

/-- Settles O53: the quiet invariant holds after the swap, and along every run from there. -/
theorem noWriteNoFurtherEmission : Obligations.NoWriteNoFurtherEmission := by
  intro s t h hx hw k
  have hq := quietInv_of_swap h hx hw
  obtain ⟨u, hrun, -⟩ := run_of_runInv k hq.1
  have hcfg : u.cfg = t.cfg :=
    run_preserves (P := fun v => v.cfg = t.cfg) (fun _ _ hv hst => (step_cfg hst).trans hv) rfl hrun
  obtain ⟨-, hm, -, -, m, -, hacts⟩ := run_preserves (fun _ _ => quietInv_of_step) hq hrun
  exact ⟨u, m, hrun, hm, hcfg ▸ hacts⟩

/-- Settles O35: a drain step asks for a drain in progress, a transaction for a closed bus and no more. -/
theorem swapIsEnabledExactlyWhen : Obligations.SwapIsEnabledExactlyWhen := by
  refine fun s => ⟨fun he => ?_, fun hno t hx => ?_⟩
  · have ⟨_, hc, hidle⟩ := he
    refine ⟨⟨_, exec_swap_of_enabled ((swapEnabled_iff s).mpr he)⟩, fun a t hx => ?_, fun bytes => ?_,
      fun n => ⟨_, execRead_of_closed n hc⟩⟩
    · rw [exec_decodeAction] at hx
      obtain ⟨hd, -⟩ := drainStep_next a s t hx
      obtain ⟨hdrain, -⟩ := (drainEnabled_iff a s).mp hd
      rw [hidle] at hdrain
      cases hdrain
    · exact ⟨_, (exec_decodeWrite bytes s).trans (busWrite_of_closed bytes s hc)⟩
  · exact hno ((swapEnabled_iff s).mp (execSwap_next s t hx).1)

/-- Settles O36: the swap is `swapState`, whose plan is that of the mode's branch. -/
theorem swapPlansAndClearsAtOnce : Obligations.SwapPlansAndClearsAtOnce := by
  rintro s htick hc hidle p rfl
  exact ⟨_, exec_swap_of_enabled ((swapEnabled_iff s).mpr ⟨htick, hc, hidle⟩), rfl⟩

/-- Settles O40, from the swap in mode `NONE`. -/
theorem swapInNoModeEmitsNothingButClears : Obligations.SwapInNoModeEmitsNothingButClears := by
  intro s he hm
  obtain ⟨-, -, hidle⟩ := (swapEnabled_iff s).mp he
  rw [exec_swap_of_enabled he, swapState_of_noMode hm hidle]

/-- Settles O44, for any action. -/
theorem drainStepTakesTheHeadOfThePlan : Obligations.DrainStepTakesTheHeadOfThePlan :=
  fun _ _ _ => exec_of_planHead

/-- Settles O45: a function's place in the order of R70 is its index in the provisioned codes. -/
theorem drainEmit1HandsTheWaveformToChannel1 : Obligations.DrainEmit1HandsTheWaveformToChannel1 := by
  refine ⟨by decide, fun s w more hs hp => ⟨waveformIndex w, ?_, exec_of_planHead (a := .emitCH1 w) hs hp⟩⟩
  cases w <;> rfl

/-- Settles O46: what is shown of a wait is no emission. -/
theorem drainWaitEmitsNothing : Obligations.DrainWaitEmitsNothing :=
  fun s d _ hs hp => ⟨_, exec_of_planHead (a := .wait d) hs hp, rfl, by
    simp [State.emissions, actionShown, Obs.isEmission]⟩

/-- Settles O47, for the burst. -/
theorem drainEmit2HandsTheBurstToChannel2 : Obligations.DrainEmit2HandsTheBurstToChannel2 :=
  fun _ codes f _ hs hp => exec_of_planHead (a := .emitCH2 codes f) hs hp

/-- Settles O48: the two conditions are those of a drain operation. -/
theorem drainOperationNeedsItsAction : Obligations.DrainOperationNeedsItsAction :=
  fun s a hno => (exec_decodeAction a s).trans (if_neg fun hd => hno ((drainEnabled_iff a s).mp hd))

/-- Settles O58: after a swap the whole plan is to come, and at reset there is none. -/
theorem quietInvariantHoldsAfterASwapAndAtReset : Obligations.QuietInvariantHoldsAfterASwapAndAtReset :=
  ⟨fun _ _ => quietInv_of_swap, fun _ ha hw => ⟨runInv_reset ha, rfl, rfl, hw, 0, .inl rfl, rfl⟩⟩

end Sys2Proof.Machine

/-! # Family `60_exceptions.md`: absorbed errors, and a swap beside a read

That the labels influence nothing is followed up from the shared operations to the step: each leaves the same state,
labels apart, whatever labels it meets (`LabelBlind`), and this composes. -/

namespace Sys2Proof.Machine

/-! ## The labels influence no operation -/

/-- What the operation leaves, labels apart, is a matter of what it meets, labels apart (R118). -/
def LabelBlind (f : State → State) : Prop := ∀ s, (f s.withoutLabels).withoutLabels = (f s).withoutLabels

theorem LabelBlind.comp {f g : State → State} (hg : LabelBlind g) (hf : LabelBlind f) :
    LabelBlind fun s => g (f s) := by
  intro s
  calc (g (f s.withoutLabels)).withoutLabels
    _ = (g (f s.withoutLabels).withoutLabels).withoutLabels := (hg _).symm
    _ = (g (f s).withoutLabels).withoutLabels := by rw [hf s]
    _ = (g (f s)).withoutLabels := hg _

section

variable {f : State → State} (hf : LabelBlind f) (c : Bool) (r : Refusal) (s : State)

include hf

/-- An operation done where a condition holds, and refused where it fails. -/
theorem LabelBlind.next_if : withoutLabels (if c then .next (f s.withoutLabels) else .refused r) =
    withoutLabels (if c then .next (f s) else .refused r) := by
  cases c
  · rfl
  · exact congrArg Host.Outcome.next (hf s)

/-- An operation refused where a condition holds, and done where it fails. -/
theorem LabelBlind.next_unless : withoutLabels (if c then .refused r else .next (f s.withoutLabels)) =
    withoutLabels (if c then .refused r else .next (f s)) := by
  cases c
  · exact congrArg Host.Outcome.next (hf s)
  · rfl

end

/-- The overrun of a counted store is a label and nothing else (R80, R118). -/
theorem storeCounted_withoutLabels (b : Buf) (v : Slot) (s : State) :
    (storeCounted b v s).withoutLabels = (store b v s).withoutLabels := by
  rw [storeCounted_eq_store]
  cases b <;> rfl

theorem labelBlind_storeCounted (b : Buf) (v : Slot) : LabelBlind (storeCounted b v) := by
  intro s
  rw [storeCounted_withoutLabels, storeCounted_withoutLabels]
  cases b <;> rfl

theorem labelBlind_wbyte (b : Byte) : LabelBlind (wbyte b) := by
  intro s
  obtain ⟨hh, e⟩ | ⟨hh, hm, e⟩ | ⟨hh, hm, hv, e⟩ | ⟨hh, hm, hv, e⟩ | ⟨hh, hm, e⟩ := wbyte_cases b s <;> rw [e]
  · rw [wbyte_of_idle (s := s.withoutLabels) hh]
    rfl
  · rw [wbyte_of_proj (s := s.withoutLabels) hh hm]
    exact labelBlind_storeCounted .cmd (zext16 b) (acknowledge s)
  · rw [wbyte_of_latchEmpty (s := s.withoutLabels) hh hm hv]
    rfl
  · rw [wbyte_of_latchFull (s := s.withoutLabels) hh hm hv]
    exact congrArg (fun t : State => { t with hiValid := false })
      (labelBlind_storeCounted .raw (bigEndian s.hi b) (acknowledge s))
  · rw [wbyte_of_noMode (s := s.withoutLabels) hh hm]
    rfl

theorem labelBlind_wbytes (bytes : List Byte) : LabelBlind (wbytes bytes) := by
  induction bytes with
  | nil => exact fun _ => rfl
  | cons b rest ih => exact ih.comp (labelBlind_wbyte b)

theorem labelBlind_closeTxn : LabelBlind closeTxn := fun _ => rfl

theorem labelBlind_wstop : LabelBlind wstop := by
  intro s
  cases hh : s.hstate with
  | idle =>
    rw [wstop_of_idle hh, wstop_of_idle (s := s.withoutLabels) hh]
    rfl
  | awaitingPayload =>
    by_cases hodd : s.mode = .raw ∧ s.hiValid = true
    · obtain ⟨hm, hv⟩ := hodd
      cases hp : s.cfg.oddPolicy with
      | drop =>
        rw [wstop_of_drop hh hm hv hp, wstop_of_drop (s := s.withoutLabels) hh hm hv hp]
        rfl
      | pad =>
        rw [wstop_of_pad hh hm hv hp, wstop_of_pad (s := s.withoutLabels) hh hm hv hp]
        exact labelBlind_closeTxn.comp ((labelBlind_storeCounted .raw (bigEndian s.hi 0x00)).comp
          (f := absorb .oddLength) fun _ => rfl) s
      | reject =>
        rw [wstop_of_reject hh hm hv hp, wstop_of_reject (s := s.withoutLabels) hh hm hv hp]
        rfl
    · rw [wstop_of_even hh hodd, wstop_of_even (s := s.withoutLabels) hh hodd]
      rfl

theorem labelBlind_wstart : LabelBlind wstart := fun _ => rfl

theorem labelBlind_writeTransaction (bytes : List Byte) : LabelBlind (writeTransaction bytes) :=
  labelBlind_wstop.comp ((labelBlind_wbytes bytes).comp labelBlind_wstart)

theorem labelBlind_readTransaction (n : Nat) : LabelBlind (readTransaction n) := fun _ => rfl

theorem labelBlind_swapState : LabelBlind swapState := fun _ => rfl

theorem labelBlind_performHead (a : Action) : LabelBlind (performHead a) := fun _ => rfl

/-! ## The labels influence no step -/

/-- No operation's enabling condition reads a label, and no operation's effect does. -/
theorem exec_decode_withoutLabels (f : Frame) (s : State) :
    withoutLabels (exec (decode f) s.withoutLabels) = withoutLabels (exec (decode f) s) := by
  cases f with
  | write bytes =>
    rw [exec_decodeWrite, exec_decodeWrite]
    exact (labelBlind_writeTransaction bytes).next_unless s.txnOpen .busBusy s
  | read n => exact (labelBlind_readTransaction n).next_unless s.txnOpen .busBusy s
  | timer => rfl
  | swap => exact labelBlind_swapState.next_if (swapEnabled s) .swapNotEnabled s
  | drain a =>
    rw [decode, exec_decodeAction, exec_decodeAction]
    exact (labelBlind_performHead a).next_if (drainEnabled a s) .drainNotEnabled s

theorem portStep_withoutLabels (s : State) : withoutLabels (portStep s.withoutLabels) = withoutLabels (portStep s) := by
  have ha : s.withoutLabels.agenda = s.agenda := rfl
  unfold portStep
  rw [ha]
  cases s.agenda with
  | nil => rfl
  | cons ev rest =>
    cases ev with
    | wstart => exact labelBlind_wstart.next_unless s.txnOpen .portOrder (advance s)
    | wbyte b => exact (labelBlind_wbyte b).next_if s.txnOpen .portOrder (advance s)
    | wstop => exact labelBlind_wstop.next_if s.txnOpen .portOrder (advance s)
    | busWrite | busRead | timer | own | reset => rfl

theorem step_withoutLabels (s : State) : withoutLabels (step s.withoutLabels) = withoutLabels (step s) := by
  cases hf : fetchFrame s with
  | none =>
    rw [step_of_none s hf, step_of_none s.withoutLabels hf]
    exact portStep_withoutLabels s
  | some f =>
    rw [step_of_fetch s f hf, step_of_fetch s.withoutLabels f hf]
    exact exec_decode_withoutLabels f (advance s)

/-! ## The cursor after a read, before and after a swap -/

/-- A read leaves the cursor one slot past its wrapped value in the active buffer (R95). -/
theorem readCursor_eq_ite (s : State) : readCursor s =
    if s.mode = .raw then (s.cursor % s.cfg.rawCap + 1) % s.cfg.rawCap
    else (s.cursor % s.cfg.cmdCap + 1) % s.cfg.cmdCap := by
  show (s.cursor % modeCap s.cfg s.mode + 1) % modeCap s.cfg s.mode = _
  rw [modeCap_eq_ite]
  split <;> rfl

/-- After the swap the mode is `NONE`, so a read reduces the cursor by the capacity of `CMD` (R37, R103). -/
theorem readCursor_swapState (s : State) :
    readCursor (swapState s) = (s.cursor % s.cfg.cmdCap + 1) % s.cfg.cmdCap := rfl

/-- Below the last slot nothing wraps. -/
theorem mod_add_one_mod_of_lt {n cap : Nat} (h : n + 1 < cap) : (n % cap + 1) % cap = n + 1 := by
  rw [Nat.mod_add_mod, Nat.mod_eq_of_lt h]

/-- Where the swap leaves a read's cursor as it was: the two reductions agree (R95, log 18). -/
theorem readCursor_eq_readCursor_swapState {s : State}
    (h : s.mode ≠ .raw ∨ s.cfg.cmdCap = s.cfg.rawCap ∨
      (s.cursor + 1 < s.cfg.cmdCap ∧ s.cursor + 1 < s.cfg.rawCap)) :
    readCursor s = readCursor (swapState s) := by
  rw [readCursor_eq_ite, readCursor_swapState]
  obtain hm | hcap | ⟨hcmd, hraw⟩ := h
  · exact if_neg hm
  · rw [hcap, ite_self]
  · rw [mod_add_one_mod_of_lt hcmd, mod_add_one_mod_of_lt hraw, ite_self]

/-! ## The obligations of the family -/

/-- Settles O29: the two states are one without their labels, and so are the outcomes. -/
theorem absorbedLabelsInfluenceNothing : Obligations.AbsorbedLabelsInfluenceNothing := fun s labels =>
  (step_withoutLabels { s with absorbed := labels }).symm.trans (step_withoutLabels s)

/-- Settles O43: neither of the two disables the other, and only the capacity a read reduces its cursor by tells the
orders apart. -/
theorem swapAndReadInEitherOrder : Obligations.SwapAndReadInEitherOrder := by
  intro s n _ he
  obtain ⟨-, hc, -⟩ := (swapEnabled_iff s).mp he
  exact ⟨_, _, _, _, execRead_of_closed n hc, exec_swap_of_enabled (s := readTransaction n s) he,
    exec_swap_of_enabled he, execRead_of_closed n hc, rfl, readCursor_eq_ite s, readCursor_swapState s,
    readCursor_eq_readCursor_swapState⟩

end Sys2Proof.Machine

/-! # Family `70_reset_and_hazards.md`: reset, coming to rest, and a write sent from end to end

With no event listed the block performs its plan (`run_plan`), and a pending swap and then its plan
(`run_swap_plan`); both end in `State.drained`. A write and a tick from rest end there too, whatever the write
(`run_write_tick`), so of the two writes only the plan is left to find: a payload shorter than its buffer stands at the
buffer's beginning (`buf_of_short_stores`), and the swap reads its codes back from there. -/

namespace Sys2Proof.Spec

/-- Where the stores do not wrap, each is the last one at its index. -/
theorem lastStored_of_length_le {us : List Slot} {cap : Nat} (h : us.length ≤ cap) (i : Nat) :
    lastStored us cap i = us[i]? := by
  induction us using List.reverseRecOn with
  | nil => rfl
  | append_singleton us v ih =>
    rw [List.length_append, List.length_singleton] at h
    rw [lastStored_append_singleton, ih (by omega), Nat.mod_eq_of_lt (by omega)]
    obtain hi | rfl | hi := Nat.lt_trichotomy i us.length
    · rw [if_neg hi.ne', List.getElem?_append_left hi]
    · rw [if_pos rfl, List.getElem?_concat_length]
    · rw [if_neg hi.ne, List.getElem?_eq_none hi.le, List.getElem?_eq_none (by simpa using hi)]

/-- Stores that do not come to the last slot pre-clear nothing: a slot holds its store, or what it held (R38, R87). -/
theorem slotAfter_of_length_lt {us : List Slot} {cap : Nat} (h : us.length < cap) (old : Slot) (i : Nat) :
    slotAfter us cap old i = us[i]?.getD old := by
  have hno : ¬ (i = 0 ∧ us ≠ [] ∧ us.length % cap = 0) := by
    rintro ⟨-, hne, hz⟩
    rw [Nat.mod_eq_of_lt h] at hz
    exact hne (List.eq_nil_of_length_eq_zero hz)
  rw [slotAfter, if_neg hno, lastStored_of_length_le h.le]

theorem codeBytes_length (codes : List Slot) : (codeBytes codes).length = 2 * codes.length := by
  simp [codeBytes, List.length_flatMap, mul_comm]

/-- The pairs of the bytes of raw codes are the codes (R41, R66). -/
theorem pairCodes_codeBytes (codes : List Slot) : pairCodes (codeBytes codes) = codes := by
  induction codes with
  | nil => rfl
  | cons v rest ih =>
    show Machine.bigEndian (highByte v) (lowByte v) :: pairCodes (codeBytes rest) = v :: rest
    rw [Machine.bigEndian_highByte_lowByte, ih]

/-- Whole codes leave no odd byte, so the stores of their write are the codes, whatever the policy (R66, R87). -/
theorem rawStores_codeBytes (p : OddPolicy) (codes : List Slot) : rawStores p (codeBytes codes) = codes := by
  rw [rawStores, if_neg (fun h => by simp [codeBytes_length] at h), pairCodes_codeBytes, List.append_nil]

end Sys2Proof.Spec

namespace Sys2Proof.Machine

/-! ## Reset and rest -/

/-- A reset in use is `resetState` (R137). -/
theorem step_of_reset {s : State} {rest : List Event} (h : s.agenda = .reset :: rest) :
    step s = .next (resetState { s with agenda := rest }) := by
  rw [step_of_noFrame h nofun rfl, ← advance_of_cons h]
  simp only [portStep, h]

theorem quiescent_iff (s : State) :
    quiescent s = true ↔ s.txnOpen = false ∧ s.sstate = .idle ∧ s.tickPending = false := by
  simp [quiescent, and_assoc]

/-! ## The block left to itself -/

/-- The state with its plan performed to the end (R109). -/
def State.drained (s : State) : State :=
  { s with plan := [], sstate := .idle, obs := s.obs ++ s.plan.map (actionShown s.cfg) }

/-- The drain brings the block to rest but for a pending tick. -/
theorem quiescent_drained {s : State} (hc : s.txnOpen = false) (ht : s.tickPending = false) :
    quiescent s.drained = true :=
  (quiescent_iff _).mpr ⟨hc, rfl, ht⟩

theorem sstate_eq_sstateFor {s : State} (h : planInv s) : s.sstate = sstateFor s.plan := by
  obtain ⟨hdrain, -⟩ := h
  cases hs : s.sstate with
  | drain => exact ((sstateFor_eq_drain_iff _).mpr (hdrain.mp hs)).symm
  | idle =>
    refine (if_pos ?_).symm
    by_contra hne
    rw [hdrain.mpr hne] at hs
    cases hs

/-- With no event listed the block performs its plan, be it empty or not (R109, R113). -/
theorem run_plan {s : State} (h : planInv s) (ha : s.agenda = []) :
    core.run s.plan.length s = .next s.drained :=
  run_drain rfl (sstate_eq_sstateFor h) ha

theorem step_of_swap {s : State} (he : swapEnabled s = true) (ha : s.agenda = []) :
    step s = .next (swapState s) := by
  rw [step_of_ownFrame (.inr ⟨ha, rfl⟩) (ownFrame_of_swapEnabled he), ← ha]
  exact exec_swap_of_enabled he

/-- With no event listed an enabled swap comes next, and its plan after it (R102, R109). -/
theorem run_swap_plan {s : State} (he : swapEnabled s = true) (ha : s.agenda = []) :
    core.run ((swapState s).plan.length + 1) s = .next (swapState s).drained :=
  (run_succ _ _ _ (step_of_swap he ha)).trans (run_drain rfl rfl ha)

/-- The bound of R115 on the plan in progress. -/
theorem plan_length_le {s : State} (h : planInv s) : s.plan.length ≤ 2 * s.cfg.cmdCap - 3 := by
  obtain ⟨-, -, hlen, -⟩ := h
  exact hlen

theorem planInv_swapState {s : State} (hv : s.cfg.valid) : planInv (swapState s) :=
  planInv_of_planOf (m := s.mode) (cmd := s.cmd) (raw := s.raw) hv rfl rfl

/-- A plan under way is performed first, and a tick that still pends is swapped then and its plan performed too: at
most two plans within the bound of R115, and the swap between them (R152). -/
theorem reaches_quiescence {s : State} (hv : s.cfg.valid) (hp : planInv s) (hc : s.txnOpen = false)
    (ha : s.agenda = []) : ∃ k t, k ≤ 4 * s.cfg.cmdCap - 5 ∧ core.run k s = .next t ∧ quiescent t = true := by
  have hcap : 2 ≤ s.cfg.cmdCap := two_le_bufCap hv .cmd
  have hfirst := plan_length_le hp
  have hrun := run_plan hp ha
  cases ht : s.tickPending with
  | false => exact ⟨_, _, by omega, hrun, quiescent_drained hc ht⟩
  | true =>
    have he : swapEnabled s.drained = true := (swapEnabled_iff _).mpr ⟨ht, hc, rfl⟩
    have hsecond : (swapState s.drained).plan.length ≤ 2 * s.cfg.cmdCap - 3 :=
      plan_length_le (planInv_swapState (s := s.drained) hv)
    exact ⟨s.plan.length + ((swapState s.drained).plan.length + 1), _, by omega,
      (run_add _ _ _ _ hrun).trans (run_swap_plan he ha), quiescent_drained hc rfl⟩

/-! ## A write and a tick from rest -/

/-- At rest, a tick is followed by the swap and its plan (R101, R102, R109). -/
theorem run_tick_plan {s : State} (hc : s.txnOpen = false) (hs : s.sstate = .idle) (ha : s.agenda = [.timer]) :
    core.run ((swapState s).plan.length + 2) s = .next (swapState (raiseTick (advance s))).drained := by
  have htick : step s = .next (raiseTick (advance s)) := step_of_fetch s .timer (fetchFrame_of_event ha rfl)
  have he : swapEnabled (raiseTick (advance s)) = true := (swapEnabled_iff _).mpr ⟨rfl, hc, hs⟩
  have hnone : (raiseTick (advance s)).agenda = [] := by simp [ha]
  exact (run_succ _ _ _ htick).trans (run_swap_plan he hnone)

/-- What R142 and R143 have of the end: since `s` the plan `p` is shown and nothing else, and the block rests with its
mode and buffers clear. -/
abbrev RestsAfter (p : List Action) (s t : State) : Prop :=
  t.obs = s.obs ++ p.map (actionShown s.cfg) ∧ quiescent t = true ∧ t.agenda = [] ∧ t.mode = .none ∧
    Spec.allZero t.cmd ∧ Spec.allZero t.raw

/-- The invariant holds with a whole write taken from the agenda. -/
theorem runInv_advance {s : State} {addr : Nat} {bytes : List Byte} {rest : List Event} (h : RunInv s)
    (ha : s.agenda = .busWrite addr bytes :: rest) : RunInv (advance s) := by
  obtain ⟨hb, hok⟩ := (runInv_iff_blockInv s).mp h
  rw [ha] at hok
  refine (runInv_iff_blockInv _).mpr ⟨hb.advance, ?_⟩
  rw [advance_txnOpen, advance_agenda, ha]
  exact (Bool.and_eq_true_iff.mp hok).2

/-- A write and a tick from rest are followed by the plan of what the write left, and the block rests again. -/
theorem run_write_tick {s : State} {bytes : List Byte} {p : List Action} (hq : quiescent s = true)
    (ha : s.agenda = [.busWrite s.cfg.busAddr bytes, .timer])
    (hp : (swapState (writeTransaction bytes (advance s))).plan = p) :
    ∃ t, core.run (3 + p.length) s = .next t ∧ RestsAfter p s t := by
  obtain ⟨hc, hs, -⟩ := (quiescent_iff s).mp hq
  have hwrite : step s = .next (writeTransaction bytes (advance s)) := by
    rw [step_of_fetch s _ (fetchFrame_of_event ha (if_pos rfl)), exec_decodeWrite]
    exact busWrite_of_closed bytes _ hc
  have hrun := run_tick_plan (s := writeTransaction bytes (advance s)) rfl (by simp [hs]) (by simp [ha])
  rw [← run_succ _ _ _ hwrite, hp, Nat.add_comm p.length 2, Nat.add_right_comm] at hrun
  refine ⟨_, hrun, ?_, quiescent_drained rfl rfl, by simp [State.drained, ha], rfl, fun _ => List.eq_of_mem_replicate,
    fun _ => List.eq_of_mem_replicate⟩
  subst hp
  simp [State.drained]

/-! ## A payload shorter than its buffer -/

/-- Stores that do not come to the last slot stand at the buffer's beginning, and the slots after them are as they
were. -/
theorem buf_of_short_stores {b : Buf} {us : List Slot} {sel : Byte} {s t : State} (h : RunInv s)
    (hcfg : t.cfg = s.cfg) (hbuf : t.buf b = (storeAll b us (afterModeByte sel s)).buf b)
    (hlt : us.length < bufCap s.cfg b) : t.buf b = us ++ (s.buf b).drop us.length := by
  obtain ⟨hlen, hload⟩ := slots_of_stores h hcfg hbuf
  obtain ⟨-, ⟨hwf, -, -⟩, -⟩ := h
  have hold : (s.buf b).length = bufCap s.cfg b := buf_length hwf
  refine List.ext_getElem (by rw [List.length_append, List.length_drop]; omega) fun i hi _ => ?_
  have hslot := hload i (hlen ▸ hi)
  rw [load_of_lt b i t (by rw [hcfg]; omega), load_of_lt b i s (by omega), Spec.slotAfter_of_length_lt hlt,
    List.getD_eq_getElem _ _ hi, List.getD_eq_getElem _ _ (by omega)] at hslot
  rw [hslot, List.getElem_append]
  split
  next hin => rw [List.getElem?_eq_getElem hin, Option.getD_some]
  next hout =>
    have hle : us.length ≤ i := Nat.le_of_not_lt hout
    simp only [List.getElem?_eq_none hle, Option.getD_none, List.getElem_drop, Nat.add_sub_of_le hle]

/-- A projector payload shorter than `CMD` stands at its beginning, widened (R80, R87). -/
theorem cmd_of_short_write {payload : List Byte} {s : State} (h : RunInv s) (hc : s.txnOpen = false)
    (hlt : payload.length < s.cfg.cmdCap) :
    (writeTransaction (selectorProj :: payload) s).cmd = payload.map zext16 ++ s.cmd.drop payload.length := by
  have hbuf : (writeTransaction (selectorProj :: payload) s).buf .cmd =
      (storeAll .cmd (payload.map zext16) (afterModeByte selectorProj s)).buf .cmd := by
    rw [writeTransaction_proj h hc]
    rfl
  have hstores := buf_of_short_stores h (writeTransaction_cfg _ s) hbuf (by rwa [List.length_map])
  rwa [List.length_map] at hstores

/-- Raw codes fewer than `RAW` has slots stand at its beginning (R81, R87). -/
theorem raw_of_short_write {codes : List Slot} {s : State} (h : RunInv s) (hc : s.txnOpen = false)
    (hlt : codes.length < s.cfg.rawCap) :
    (writeTransaction (selectorRaw :: codeBytes codes) s).raw = codes ++ s.raw.drop codes.length := by
  have hbuf : (writeTransaction (selectorRaw :: codeBytes codes) s).buf .raw =
      (storeAll .raw codes (afterModeByte selectorRaw s)).buf .raw := by
    rw [writeTransaction_raw h hc, Spec.rawStores_codeBytes]
    rfl
  exact buf_of_short_stores h (writeTransaction_cfg _ s) hbuf hlt

/-! ## The plan of a short write -/

/-- Nonzero codes before zeros are all the codes before the sentinel (R106). -/
theorem rawCodes_append_zeros {cfg : Config} {codes zeros : List Slot} (hnz : ∀ v ∈ codes, v ≠ 0)
    (hz : Spec.allZero zeros) (hlen : (codes ++ zeros).length = cfg.rawCap) :
    rawCodes cfg (codes ++ zeros) = codes := by
  have hrest : zeros.takeWhile (· != 0) = [] := by
    cases zeros with
    | nil => rfl
    | cons v rest => rw [List.takeWhile_cons_of_neg]; simpa using hz v List.mem_cons_self
  rw [rawCodes, ← hlen, List.take_length, List.takeWhile_append_of_pos (by simpa using hnz), hrest, List.append_nil]

/-- A raw write into a clear buffer plans the one burst of its codes (R106, R143). -/
theorem swapState_plan_of_rawWrite {codes : List Slot} {s : State} (h : RunInv s) (hc : s.txnOpen = false)
    (hz : Spec.allZero s.raw) (hne : codes ≠ []) (hlt : codes.length < s.cfg.rawCap) (hnz : ∀ v ∈ codes, v ≠ 0) :
    (swapState (writeTransaction (selectorRaw :: codeBytes codes) s)).plan =
      [.emitCH2 codes s.cfg.carrierFreq] := by
  have hmode : (writeTransaction (selectorRaw :: codeBytes codes) s).mode = .raw := by
    rw [writeTransaction_raw h hc]
    exact if_neg (fun hodd => by simp [Spec.codeBytes_length] at hodd)
  have hcodes : rawCodes s.cfg (codes ++ s.raw.drop codes.length) = codes := by
    obtain ⟨-, ⟨⟨-, hlen⟩, -, -⟩, -⟩ := h
    refine rawCodes_append_zeros hnz (fun v hv => hz v (List.mem_of_mem_drop hv)) ?_
    rw [List.length_append, List.length_drop]
    omega
  obtain ⟨v, rest, rfl⟩ := List.exists_cons_of_ne_nil hne
  rw [swapState_plan, writeTransaction_cfg, hmode, raw_of_short_write h hc hlt, planOf, planRaw, hcodes]

/-- A count and its codes at the beginning of `CMD` are what the loop of R105 consults, whatever stands after them. -/
theorem projCodes_of_count {cfg : Config} {codes : List Byte} {rest : List Slot}
    (hcap : codes.length ≤ cfg.cmdCap - 1) (hcount : codes.length ≤ 255) (hnz : ∀ c ∈ codes, c ≠ 0) :
    projCodes cfg ((BitVec.ofNat 8 codes.length :: codes).map zext16 ++ rest) = codes := by
  have hn : projCount ((BitVec.ofNat 8 codes.length :: codes).map zext16 ++ rest) = codes.length := by
    rw [projCount, List.map_cons, List.cons_append, List.getD_cons_zero, lowByte_zext16, BitVec.toNat_ofNat,
      Nat.mod_eq_of_lt (by omega)]
  have htake : (codes.map zext16 ++ rest).take codes.length = codes.map zext16 :=
    List.take_left' (List.length_map _)
  have hlow : (codes.map zext16).map lowByte = codes := by simp [Function.comp_def, lowByte_zext16]
  rw [projCodes, hn, min_eq_left hcap, List.map_cons, List.cons_append, List.drop_one, List.tail_cons, htake, hlow]
  exact List.takeWhile_eq_self_iff.mpr (by simpa using hnz)

/-- A projector write of its count and its codes plans the waveforms the table has for them (R105, R142). -/
theorem swapState_plan_of_projWrite {codes : List Byte} {s : State} (h : RunInv s) (hc : s.txnOpen = false)
    (hlt : codes.length ≤ s.cfg.cmdCap - 2) (hcount : codes.length ≤ 255) (hnz : ∀ c ∈ codes, c ≠ 0) :
    (swapState (writeTransaction (selectorProj :: BitVec.ofNat 8 codes.length :: codes) s)).plan =
      interleave s.cfg.interCmdDelay (codes.filterMap (lookup s.cfg)) := by
  have hcap : 2 ≤ s.cfg.cmdCap := two_le_bufCap h.1 .cmd
  have hmode : (writeTransaction (selectorProj :: BitVec.ofNat 8 codes.length :: codes) s).mode = .proj := by
    rw [writeTransaction_proj h hc]
  rw [swapState_plan, writeTransaction_cfg, hmode, cmd_of_short_write h hc (by rw [List.length_cons]; omega), planOf,
    planProj, projCodes_of_count (by omega) hcount hnz]

/-! ## The obligations of the family -/

/-- Settles O52: at most the plan under way, a swap and that swap's plan are to come. -/
theorem blockReachesQuiescence : Obligations.BlockReachesQuiescence := by
  refine ⟨quiescent_iff, ?_⟩
  rintro s ⟨hv, -, -, hp, -⟩ hc ha
  exact reaches_quiescence hv hp hc ha

/-- Settles O54: the write's codes stand at the beginning of the clear buffer, so its plan is their one burst. -/
theorem rawCodesReachChannel2Intact : Obligations.RawCodesReachChannel2Intact := by
  intro s codes h hq hz hne hlt hnz ha
  obtain ⟨hc, -, -⟩ := (quiescent_iff s).mp hq
  exact run_write_tick hq ha (swapState_plan_of_rawWrite (runInv_advance h ha) hc hz hne hlt hnz)

/-- Settles O55: the write's count bounds the loop to its own codes, whatever stood in the buffer. -/
theorem projectorCodesReachChannel1Intact : Obligations.ProjectorCodesReachChannel1Intact := by
  rintro s codes h hq hlt hcount hnz ha p rfl
  obtain ⟨hc, -, -⟩ := (quiescent_iff s).mp hq
  exact run_write_tick hq ha (swapState_plan_of_projWrite (runInv_advance h ha) hc hlt hcount hnz)

/-- Settles O1: nothing is enabled at reset. -/
theorem resetGivesEveryElementItsValue : Obligations.ResetGivesEveryElementItsValue :=
  ⟨rfl, rfl, rfl, rfl, rfl, rfl, rfl, rfl, rfl, rfl, rfl, step_of_rest (.inr ⟨rfl, rfl⟩) (ownFrame_of_rest rfl rfl)⟩

/-- Settles O2: reset is `resetState` of a valid configuration, whatever is listed. -/
theorem invariantHoldsAtReset : Obligations.InvariantHoldsAtReset := fun _ => runInv_reset

/-- Settles O7: a reset in use is `resetState`. -/
theorem resetInUseAbandonsWriteAndPlan : Obligations.ResetInUseAbandonsWriteAndPlan := fun _ _ => step_of_reset

end Sys2Proof.Machine
